-- ==== Sys2Proof/Word.lean ====
section
/-! DEFINITION. The bit widths and the plain data of the block: nibbles, values, command words, the
cursor, the two numeric encodings, the two halves of a sample pair, and the NibbleFrame. -/

namespace Sys2Proof

/-- A nibble, `NIBW = 4` bits (R6, R22). -/
abbrev Nibble := BitVec 4

/-- A value of the SampleBuffer, one 8-bit I or Q (R7, R14). -/
abbrev Value := BitVec 8

/-- A command word `cmd[39:0]` (R80). -/
abbrev CmdWord := BitVec 40

/-- The cursor register, 23 bits (R25, D22). -/
abbrev Cursor := BitVec 23

/-- The numeric encoding of the output, the FMT bit: `s8` is FMT = 0 (signed, `.cs8`), `u8` is
FMT = 1 (unsigned-offset, `.cu8`). Both values of the bit are legal (R30). -/
inductive Fmt where
  | s8
  | u8
  deriving DecidableEq, Repr

/-- Which half of a sample pair a value is: `i` in-phase, `q` quadrature (R52). -/
inductive Phase where
  | i
  | q
  deriving DecidableEq, Repr

/-- Nine nibbles in field order: the content of `NIB[0..8]` (R14, R22). -/
structure NibbleFrame where
  n0 : Nibble
  n1 : Nibble
  n2 : Nibble
  n3 : Nibble
  n4 : Nibble
  n5 : Nibble
  n6 : Nibble
  n7 : Nibble
  n8 : Nibble
  deriving DecidableEq, Repr, Inhabited

end Sys2Proof
end

