-- ==== Sys2Proof/Syntax.lean ====
section
/-! DEFINITION. The instructions: one constructor per row of the opcode table, the elements and
levels that nine of the rows name, and the code words in which the rows are presented. -/

namespace Sys2Proof

/-- A logical element of the output code (R14, R90). -/
inductive Element where
  | sync
  | bit0
  | bit1
  deriving DecidableEq, Repr

/-- A level of the output: a row of the two level tables (R92, R166). -/
inductive Level where
  | s8High
  | s8Low
  | s8Q
  | u8High
  | u8Low
  | u8Q
  deriving DecidableEq, Repr

/-- One constructor per row of opcode_table.json. `ldn`, `ldr`, `cfg` and `start` are the command
words (R81), `pull` the strobe (R81), the rest the rows of formats ELEMENT (R90) and LEVEL (R92). -/
inductive Instr where
  /-- `LDN` load nibbles, format N (R82, R110). -/
  | ldn (n : NibbleFrame)
  /-- `LDR` load reading, format R (R83, R114). -/
  | ldr (id : BitVec 8) (channel : BitVec 2) (temp : BitVec 16) (humidity : BitVec 8)
  /-- `CFG` configure the format, format C (R84, R192). -/
  | cfg (fmt : Fmt)
  /-- `START` restart the stream, format Z (R85, R190). -/
  | start
  /-- `PULL`, the strobe (R186, R187, R188). -/
  | pull
  /-- Element `SYNC` (R150). -/
  | sync
  /-- Element `BIT0` (R151). -/
  | bit0
  /-- Element `BIT1` (R152). -/
  | bit1
  /-- Level `S8_HIGH` (R166): FMT = 0, I, slot 1. -/
  | s8High
  /-- Level `S8_LOW` (R166): FMT = 0, I, slot 0. -/
  | s8Low
  /-- Level `S8_Q` (R166): FMT = 0, Q. -/
  | s8Q
  /-- Level `U8_HIGH` (R166): FMT = 1, I, slot 1. -/
  | u8High
  /-- Level `U8_LOW` (R166): FMT = 1, I, slot 0. -/
  | u8Low
  /-- Level `U8_Q` (R166): FMT = 1, Q. -/
  | u8Q
  deriving DecidableEq, Repr

/-- A word of one of the table's formats, as it is presented: a 40-bit command word (formats N, R,
C, Z), the one-bit strobe, the slots of an element in time order, or a level's byte together with
the format and phase in which it is read (the byte alone does not say which level it is: R175,
R248). -/
inductive Code where
  | cmd (w : CmdWord)
  | strobe
  | element (slots : List Bool)
  | level (fmt : Fmt) (ph : Phase) (v : Value)
  deriving DecidableEq, Repr

end Sys2Proof
end

