-- ==== Sys2Proof/WellFormed.lean ====
section
/-! DEFINITION. Which code words are well formed (R88, R90, R92), written from the prose of the
rules and independently of the decoder, and the well-formedness of instructions. -/

namespace Sys2Proof

/-- A command word is legal (R88): opcode 1 to 4, and no reserved bit of its format set. Format N
has none (R82), format R has [1:0] (R83), format C [35:1] (R84), format Z [35:0] (R85). -/
def cmdLegal (w : CmdWord) : Bool :=
  match (w.extractLsb' 36 4).toNat with
  | 1 => true
  | 2 => w.extractLsb' 0 2 == 0
  | 3 => w.extractLsb' 1 35 == 0
  | 4 => w.extractLsb' 0 36 == 0
  | _ => false

/-- The slots are one of the three pulse trains of R90. -/
def elementLegal (slots : List Bool) : Bool :=
  slots == [true, false, false, false, false, false, false, false, false]
    || slots == [true, false, false]
    || slots == [true, false, false, false, false]

/-- The byte is an entry of the level table of R92 in its format's row and its phase's column. -/
def levelLegal (fmt : Fmt) (ph : Phase) (v : Value) : Bool :=
  match fmt, ph with
  | .s8, .i => v == 127 || v == 0
  | .s8, .q => v == 0
  | .u8, .i => v == 255 || v == 127
  | .u8, .q => v == 127

/-- The code words that are instructions. -/
def Code.wellFormed : Code → Bool
  | .cmd w => cmdLegal w
  | .strobe => true
  | .element slots => elementLegal slots
  | .level fmt ph v => levelLegal fmt ph v

/-- Every term of `Instr` is well formed: each operand has exactly the width of its field, every
payload of `LDN` is legal (R82) and a field value outside a valid reading's range is not illegal
(R89, R218). What can be ill formed is a code word. -/
def Instr.wellFormed : Instr → Bool
  | .ldn _ => true
  | .ldr _ _ _ _ => true
  | .cfg _ => true
  | .start => true
  | .pull => true
  | .sync => true
  | .bit0 => true
  | .bit1 => true
  | .s8High => true
  | .s8Low => true
  | .s8Q => true
  | .u8High => true
  | .u8Low => true
  | .u8Q => true

end Sys2Proof
end

