-- ==== Sys2Proof/Decode.lean ====
section
/-! DEFINITION. The decoder, total on every code word and rejecting by name (R86, R88, R91, R96),
the words of the opcode table as the host numbers them, and after them the encoder. -/

namespace Sys2Proof

/-- Why a code word is no instruction. The machine makes no distinction between the two reasons of a
command word (R216). -/
inductive Reject where
  /-- `cmd[39:36]` is 0x0 or 0x5 to 0xF (R81, R88). -/
  | illegalOpcode
  /-- A reserved bit of LDR, CFG or START is 1 (R88). -/
  | reservedBitSet
  /-- The slots are none of the three pulse trains (R90, R91). -/
  | notAnElement
  /-- The byte is no level of that format and phase (R92). -/
  | notALevel
  deriving DecidableEq, Repr

/-! ## Fields -/

/-- The format a bit selects: 0 signed, 1 unsigned-offset (R84). -/
def Fmt.ofBit (b : Bool) : Fmt := if b then .u8 else .s8

/-- The FMT bit of a format (R30). -/
def Fmt.bit : Fmt → Bool
  | .s8 => false
  | .u8 => true

/-- The nine nibbles of a format N payload: `n_i = cmd[35-4i : 32-4i]` (R82). -/
def NibbleFrame.ofPayload (w : CmdWord) : NibbleFrame where
  n0 := w.extractLsb' 32 4
  n1 := w.extractLsb' 28 4
  n2 := w.extractLsb' 24 4
  n3 := w.extractLsb' 20 4
  n4 := w.extractLsb' 16 4
  n5 := w.extractLsb' 12 4
  n6 := w.extractLsb' 8 4
  n7 := w.extractLsb' 4 4
  n8 := w.extractLsb' 0 4

/-- The 36-bit number `{n0, ..., n8}` (R82, R130). -/
def NibbleFrame.payload (n : NibbleFrame) : BitVec 36 :=
  n.n0 ++ n.n1 ++ n.n2 ++ n.n3 ++ n.n4 ++ n.n5 ++ n.n6 ++ n.n7 ++ n.n8

/-! ## Command words -/

/-- A row of the table of R86. -/
structure CmdRow where
  mask : CmdWord
  pattern : CmdWord
  deriving DecidableEq, Repr

/-- R86's test `(cmd AND mask) = match`. -/
def CmdRow.matches (r : CmdRow) (w : CmdWord) : Bool := w &&& r.mask == r.pattern

/-- R86, LDN. -/
def rowLdn : CmdRow := ⟨0xF000000000, 0x1000000000⟩
/-- R86, LDR. -/
def rowLdr : CmdRow := ⟨0xF000000003, 0x2000000000⟩
/-- R86, CFG. -/
def rowCfg : CmdRow := ⟨0xFFFFFFFFFE, 0x3000000000⟩
/-- R86, START. -/
def rowStart : CmdRow := ⟨0xFFFFFFFFFF, 0x4000000000⟩

/-- The four rows of R86, in its order. -/
def cmdRows : List CmdRow := [rowLdn, rowLdr, rowCfg, rowStart]

/-- Why a word that matches no row is illegal (R88): an opcode of a format with reserved bits has one
set; any other opcode is unknown. -/
def rejectCmd (w : CmdWord) : Reject :=
  if (w.extractLsb' 36 4) ∈ [2#4, 3#4, 4#4] then .reservedBitSet else .illegalOpcode

/-- The command decoder of R86, total on 40-bit words (R96). -/
def decodeCmd (w : CmdWord) : Except Reject Instr :=
  if rowLdn.matches w then .ok (.ldn (NibbleFrame.ofPayload w))
  else if rowLdr.matches w then
    .ok (.ldr (w.extractLsb' 28 8) (w.extractLsb' 26 2) (w.extractLsb' 10 16) (w.extractLsb' 2 8))
  else if rowCfg.matches w then .ok (.cfg (Fmt.ofBit (w.getLsbD 0)))
  else if rowStart.matches w then .ok .start
  else .error (rejectCmd w)

/-! ## Elements and levels -/

/-- An element from its slots (R91): one `1`, then only `0`s, classified by their number. -/
def decodeElement (slots : List Bool) : Except Reject Instr :=
  match slots with
  | true :: zeros =>
    if zeros.all (fun b => !b) then
      match zeros.length with
      | 2 => .ok .bit0
      | 4 => .ok .bit1
      | 8 => .ok .sync
      | _ => .error .notAnElement
    else .error .notAnElement
  | _ => .error .notAnElement

/-- A level from its byte, in a known format and phase (R92, R93, R248). -/
def decodeLevel (fmt : Fmt) (ph : Phase) (v : Value) : Except Reject Instr :=
  match fmt, ph with
  | .s8, .i => if v = 127 then .ok .s8High else if v = 0 then .ok .s8Low else .error .notALevel
  | .s8, .q => if v = 0 then .ok .s8Q else .error .notALevel
  | .u8, .i => if v = 255 then .ok .u8High else if v = 127 then .ok .u8Low else .error .notALevel
  | .u8, .q => if v = 127 then .ok .u8Q else .error .notALevel

/-- The decoder: total on every code word. -/
def decode : Code → Except Reject Instr
  | .cmd w => decodeCmd w
  | .strobe => .ok .pull
  | .element slots => decodeElement slots
  | .level fmt ph v => decodeLevel fmt ph v

/-! ## The words of the opcode table, numbered as it numbers them -/

/-- The low `n` bits of `w`, most significant first: an element's pattern read as a number has its
first slot in the most significant place (opcode_table.json, "leftmost first"). -/
def bitsMsbFirst : Nat → Nat → List Bool
  | 0, _ => []
  | n + 1, w => w.testBit n :: bitsMsbFirst n w

/-- The code word that a table row's number stands for (log 2, log 10). Above 16 bits it is a command
word; from 9 to 16 bits it is the nine slots of SYNC's row; up to 8 bits it is the strobe (1), a
shorter element (its pattern read as a number, 4 or 16), or a level's byte. The bytes 0x7F and 0x00
stand for more than one level (R175, R248); they are read as the signed I levels, and 0xFF as the
unsigned one. -/
def tableCode (nbits w : Nat) : Code :=
  if 16 < nbits then .cmd (BitVec.ofNat 40 w)
  else if 8 < nbits then .element (bitsMsbFirst 9 w)
  else if w = 1 then .strobe
  else if w = 4 then .element (bitsMsbFirst 3 w)
  else if w = 16 then .element (bitsMsbFirst 5 w)
  else if w = 255 then .level .u8 .i 255
  else .level .s8 .i (BitVec.ofNat 8 w)

/-- What the decoder gives for the word `w` of `nbits` bits of the opcode table; nothing where the
word does not fit its bits or the decoder refuses it. -/
def decodeTableWord (nbits w : Nat) : Option Instr :=
  if w < 2 ^ nbits then (decode (tableCode nbits w)).toOption else none

/-! ## The encoder -/

/-- The pulse train of an element, the table of R90. -/
def Element.train : Element → List Bool
  | .sync => [true, false, false, false, false, false, false, false, false]
  | .bit0 => [true, false, false]
  | .bit1 => [true, false, false, false, false]

/-- The entry of the level table of R92: format, phase and byte. -/
def Level.entry : Level → Fmt × Phase × Value
  | .s8High => (.s8, .i, 0x7F)
  | .s8Low => (.s8, .i, 0x00)
  | .s8Q => (.s8, .q, 0x00)
  | .u8High => (.u8, .i, 0xFF)
  | .u8Low => (.u8, .i, 0x7F)
  | .u8Q => (.u8, .q, 0x7F)

/-- The code word of a level. -/
def Level.code (l : Level) : Code := .level l.entry.1 l.entry.2.1 l.entry.2.2

/-- Format N (R82). -/
def encodeLdn (n : NibbleFrame) : CmdWord := 0x1#4 ++ n.payload

/-- Format R (R83). -/
def encodeLdr (id : BitVec 8) (channel : BitVec 2) (temp : BitVec 16) (humidity : BitVec 8) :
    CmdWord :=
  0x2#4 ++ id ++ channel ++ temp ++ humidity ++ 0#2

/-- Format C (R84). -/
def encodeCfg (fmt : Fmt) : CmdWord := 0x3#4 ++ 0#35 ++ BitVec.ofBool fmt.bit

/-- Format Z (R85). -/
def encodeStart : CmdWord := 0x4#4 ++ 0#36

/-- The code word of an instruction, written from the encoding tables (R82 to R85, R90, R92). -/
def encode : Instr → Code
  | .ldn n => .cmd (encodeLdn n)
  | .ldr id channel temp humidity => .cmd (encodeLdr id channel temp humidity)
  | .cfg fmt => .cmd (encodeCfg fmt)
  | .start => .cmd encodeStart
  | .pull => .strobe
  | .sync => .element Element.sync.train
  | .bit0 => .element Element.bit0.train
  | .bit1 => .element Element.bit1.train
  | .s8High => Level.s8High.code
  | .s8Low => Level.s8Low.code
  | .s8Q => Level.s8Q.code
  | .u8High => Level.u8High.code
  | .u8Low => Level.u8Low.code
  | .u8Q => Level.u8Q.code

end Sys2Proof
end

