-- ==== Sys2Proof/Config.lean ====
section
/-! DEFINITION. The configuration record of R6 with its open parameters (R8, R116), this hardware's
instance of it, and the one family of free values. -/

namespace Sys2Proof

/-- The constants of R6, gathered in one record; every rule names them instead of a literal.
`osr`, `reps` (R8, D18) and `tempNibbles` (R116, D4) are the three open parameters. `nnib`, `nibw`
and `nbits` are the sizes that the type `NibbleFrame` has built in; `sampleRate` and `slotRate` are
timing only (R254). -/
structure Params where
  nnib : Nat
  nibw : Nat
  nbits : Nat
  reps : Nat
  syncw : Nat
  w0 : Nat
  w1 : Nat
  osr : Nat
  sampleRate : Nat
  slotRate : Nat
  s8High : Value
  s8Low : Value
  s8Q : Value
  u8High : Value
  u8Low : Value
  u8Q : Value
  marker : Nibble
  chbase : Nibble
  tempNibbles : BitVec 16 → Nibble × Nibble × Nibble

/-- This hardware: the values of R6, `OSR = 1000`, `REPS = 12` (R8), and the low-12-bit slice as
its temperature map (R116, decision D4). -/
def Config.hw : Params where
  nnib := 9
  nibw := 4
  nbits := 36
  reps := 12
  syncw := 9
  w0 := 3
  w1 := 5
  osr := 1000
  sampleRate := 2000000
  slotRate := 2000
  s8High := 127
  s8Low := 0
  s8Q := 0
  u8High := 255
  u8Low := 127
  u8Q := 127
  marker := 0xF
  chbase := 7
  tempNibbles t := (t.extractLsb' 8 4, t.extractLsb' 4 4, t.extractLsb' 0 4)

/-- This hardware at another oversampling ratio and repetition count (R8: "any OSR >= 1,
REPS >= 1"). -/
def Config.variant (osr reps : Nat) : Params :=
  { Config.hw with osr := osr, reps := reps }

/-- All that the source settles about the temperature map (R116 case (a)): for 0 to 2047 tenths the
three nibbles are the hexadecimal digits of the number, high to low. A claim about any other
temperature rests on the instance (D4, log 7). -/
def Params.TempSettled (c : Params) : Prop :=
  ∀ t : BitVec 16, 0 ≤ t.toInt → t.toInt ≤ 2047 →
    c.tempNibbles t =
      (BitVec.ofNat 4 (t.toNat / 256), BitVec.ofNat 4 (t.toNat / 16), BitVec.ofNat 4 t.toNat)

/-- FREE VALUE (DESIGN CHOICE, log 4): what the nibble registers hold after the n-th Reset and
before the next load, where the spec gives no value (R23, R36, U7). It has no body: nothing can be
proved of it. No rule reads it. -/
opaque Config.unwrittenNibbles : Nat → NibbleFrame

end Sys2Proof
end

