-- ==== Sys2Proof/Machine/State.lean ====
section
/-! DEFINITION. The state: the six items of R20, and beside them the model's own three fields (the
input pins still to come, what the last step put out, the count of free values); the reasons a step
can stop; the state after reset; one update per field. -/

namespace Sys2Proof.Machine

/-- The two faults (R210). `CAUSE = 0b00` NONE is the absence of one, and 0b11 is never produced
(R30, U11). A fault is a NEXT state with FAULT = 1 (R11, R213), never an outcome that stops the
model. -/
inductive Cause where
  /-- 0b01: a PULL with LOADED = 0 (R187, R211). -/
  | emptyPull
  /-- 0b10: an illegal command word (R88, R212). -/
  | illegalCmd
  deriving DecidableEq, Repr

/-- The input pins in one clock cycle (R34). -/
structure Pins where
  rst : Bool
  cmdValid : Bool
  cmd : CmdWord
  pull : Bool
  deriving DecidableEq, Repr

/-- The events (R11). -/
inductive Event where
  | reset
  | cmd (w : CmdWord)
  | pull
  | idle
  deriving DecidableEq, Repr

/-- What one step is given. `pins` is a clock cycle of the hardware. `element` and `level` present a
code word of the table's ELEMENT or LEVEL rows to the stage it belongs to (P2, P3); no pin of the
hardware does this (DESIGN CHOICE, log 8), and a list of inputs without them is the hardware's. -/
inductive Cycle where
  | pins (p : Pins)
  | element (slots : List Bool)
  | level (fmt : Fmt) (ph : Phase) (v : Value)
  deriving DecidableEq, Repr

/-- What a step puts out. -/
inductive Out where
  /-- No output value: `out_valid = 0` (R35). -/
  | quiet
  /-- `out_valid = 1`: the delivered value and its phase (R35, R186). -/
  | value (v : Value) (ph : Phase)
  /-- Stage P2's output, the pulse train of an element (R150 to R152); internal, no pin. -/
  | train (slots : List Bool)
  /-- Stage P3's output, a level on its half of the pair (R166); internal, no pin. -/
  | level (v : Value) (ph : Phase)
  deriving DecidableEq, Repr

/-- Reasons to stop with a fault: there are none. The step function of this hardware "is total on
every event in every state" (R11), and its two faults are next states (R213). -/
inductive Fault
  deriving DecidableEq, Repr

/-- Reasons to refuse. -/
inductive Refusal where
  /-- Raised by `exec` alone, for an instruction without a meaning; no arm does. Safe. -/
  | notModelled (mnemonic : String)
  /-- Raised by the step for a stage word (`Cycle.element`, `Cycle.level`) that is no element or no
  level of the tables; no clock cycle of the hardware raises it. Safe (log 9). -/
  | notACodeWord
  deriving DecidableEq, Repr

/-- The state. The first six fields are the whole of the spec's (R20). -/
structure State where
  /-- `NIB[0..8]` (R22). Between a Reset and the next load it is a free value that no rule reads. -/
  nib : NibbleFrame
  /-- `CUR` (R25). -/
  cur : Cursor
  /-- `FMT`, the CTRL register (R30). -/
  fmt : Fmt
  /-- `LOADED` (R28). -/
  loaded : Bool
  /-- `FAULT` (R29). -/
  fault : Bool
  /-- `CAUSE` (R30); `none` is 0b00. -/
  cause : Option Cause
  /-- The model's own: the inputs still to come, earliest first; none left means all pins low
  (log 1). -/
  inputs : List Cycle
  /-- The model's own: what the last step put out (log 3). -/
  out : Out
  /-- The model's own: how many free values have been drawn (log 4). -/
  draws : Nat
  deriving DecidableEq, Repr

/-- The machine right after reset (R36). -/
def State.reset : State where
  nib := Config.unwrittenNibbles 0
  cur := 0
  fmt := .s8
  loaded := false
  fault := false
  cause := none
  inputs := []
  out := .quiet
  draws := 0

/-! ## One update per field -/

def State.withNib (s : State) (n : NibbleFrame) : State := { s with nib := n }
def State.withCur (s : State) (c : Cursor) : State := { s with cur := c }
def State.withFmt (s : State) (f : Fmt) : State := { s with fmt := f }
def State.withLoaded (s : State) (b : Bool) : State := { s with loaded := b }
def State.withFault (s : State) (b : Bool) : State := { s with fault := b }
def State.withCause (s : State) (c : Option Cause) : State := { s with cause := c }
def State.withInputs (s : State) (l : List Cycle) : State := { s with inputs := l }
def State.withOut (s : State) (o : Out) : State := { s with out := o }
def State.withDraws (s : State) (n : Nat) : State := { s with draws := n }

end Sys2Proof.Machine
end

