-- ==== Sys2Proof/Machine/Ops.lean ====
section
/-! DEFINITION. The named operations over the state: being idle, taking a fault, leaving the faulted
state by Reset, loading a frame, writing FMT and CUR, putting something out. -/

namespace Sys2Proof.Machine

/-- The outcomes of this machine. -/
abbrev Result := Host.Outcome State Fault Refusal

/-- The `Idle` event: nothing changes and nothing is delivered (R194). -/
def idle (s : State) : State := s.withOut .quiet

/-- TAKING A FAULT (R213): FAULT and CAUSE are written, no value is delivered, everything else is
kept. Nothing is saved, there is no handler and no mode to change. -/
def raise (c : Cause) (s : State) : State :=
  ((s.withFault true).withCause (some c)).withOut .quiet

/-- The `Reset` event, the only way out of a fault (R36, R215, R240): every item to its reset value,
NIB without a value (a fresh free value, log 4), no output. -/
def resetEvent (s : State) : State :=
  (State.reset.withInputs s.inputs).withDraws (s.draws + 1) |>.withNib
    (Config.unwrittenNibbles (s.draws + 1))

/-- What an instruction does is done only while FAULT = 0; while FAULT = 1 every event but Reset is
`Idle` (R35, R120, R188, R214). -/
def whenLive (effect : State → State) (s : State) : Result :=
  .next (if s.fault then idle s else effect s)

/-- A load: all nine nibbles at once, LOADED set, the stream restarted, no output (R110, R112,
R114). -/
def loadFrame (n : NibbleFrame) (s : State) : State :=
  (((s.withNib n).withLoaded true).withCur 0).withOut .quiet

/-- `CUR <- 0`, no output (R190). -/
def restart (s : State) : State := (s.withCur 0).withOut .quiet

/-- `FMT <- f`, no output; CUR is kept (R192). -/
def setFormat (f : Fmt) (s : State) : State := (s.withFmt f).withOut .quiet

/-- Deliver a value at the output port and move the cursor (R186). -/
def deliver (v : Value) (ph : Phase) (next : Cursor) (s : State) : State :=
  (s.withOut (.value v ph)).withCur next

/-- Put out the slots of an element at stage P2 (R150 to R152); the spaces are no state, so nothing
else changes (R21). -/
def emitTrain (slots : List Bool) (s : State) : State := s.withOut (.train slots)

/-- Put out a level at stage P3 (R166); nothing else changes. -/
def emitLevel (v : Value) (ph : Phase) (s : State) : State := s.withOut (.level v ph)

end Sys2Proof.Machine
end

