-- ==== Sys2Proof/Machine/Control.lean ====
section
/-! DEFINITION. The control commands CFG and START (R190, R192). -/

namespace Sys2Proof.Machine

/-- `CFG` (R192). -/
def execCfg (fmt : Fmt) (s : State) : Result := whenLive (setFormat fmt) s

/-- `START` (R190). -/
def execStart (s : State) : Result := whenLive restart s

end Sys2Proof.Machine
end

