-- ==== Sys2Proof/Machine/Operands.lean ====
section
/-! DEFINITION. Stage P0, the field packer: from the operands of LDR to the nine nibbles (R113 to
R119), and the aliases of the nibble registers (R22). -/

namespace Sys2Proof.Machine

/-- `Pack` (R113): identity nibbles (R115), `CHBASE + channel` in four bits (R118), the temperature's
three nibbles (R116), the marker (R119), humidity nibbles in plain binary (R117). Nothing is checked
(R89). -/
def pack (c : Params) (id : BitVec 8) (channel : BitVec 2) (temp : BitVec 16)
    (humidity : BitVec 8) : NibbleFrame where
  n0 := id.extractLsb' 4 4
  n1 := id.extractLsb' 0 4
  n2 := c.chbase + channel.setWidth 4
  n3 := (c.tempNibbles temp).1
  n4 := (c.tempNibbles temp).2.1
  n5 := (c.tempNibbles temp).2.2
  n6 := c.marker
  n7 := humidity.extractLsb' 4 4
  n8 := humidity.extractLsb' 0 4

/-- The nine nibbles in index order, `NIB[0]` first (R9, R53). -/
def nibbleList (n : NibbleFrame) : List Nibble :=
  [n.n0, n.n1, n.n2, n.n3, n.n4, n.n5, n.n6, n.n7, n.n8]

/-- Alias `ID_HI` (R22). -/
def idHi (n : NibbleFrame) : Nibble := n.n0
/-- Alias `ID_LO` (R22). -/
def idLo (n : NibbleFrame) : Nibble := n.n1
/-- Alias `CH` (R22). -/
def ch (n : NibbleFrame) : Nibble := n.n2
/-- Alias `T_HI` (R22). -/
def tHi (n : NibbleFrame) : Nibble := n.n3
/-- Alias `T_MID` (R22). -/
def tMid (n : NibbleFrame) : Nibble := n.n4
/-- Alias `T_LO` (R22). -/
def tLo (n : NibbleFrame) : Nibble := n.n5
/-- Alias `MARK` (R22). -/
def mark (n : NibbleFrame) : Nibble := n.n6
/-- Alias `HUM_HI` (R22). -/
def humHi (n : NibbleFrame) : Nibble := n.n7
/-- Alias `HUM_LO` (R22). -/
def humLo (n : NibbleFrame) : Nibble := n.n8

end Sys2Proof.Machine
end

