-- ==== Sys2Proof/Machine/Encoder.lean ====
section
/-! DEFINITION. Stage P1, the frame encoder: data bits, elements, repetitions (R130 to R135), and the
lengths that follow from them (R31). -/

namespace Sys2Proof.Machine

/-- The bits of a nibble, most significant first (R53, R130). -/
def nibbleBits (x : Nibble) : List Bool :=
  [x.getLsbD 3, x.getLsbD 2, x.getLsbD 1, x.getLsbD 0]

/-- `DataBits(N)`: the 36 data bits, nibbles in index order (R130). -/
def dataBits (n : NibbleFrame) : List Bool := (nibbleList n).flatMap nibbleBits

/-- `w(N)`, the number of 1 bits among them (R31, R130). -/
def weight (n : NibbleFrame) : Nat := (dataBits n).count true

/-- The element of a data bit (R131). -/
def bitElement (b : Bool) : Element := if b then .bit1 else .bit0

/-- `Rep(N)`: the sync element, then the 36 data elements (R131). -/
def repetition (n : NibbleFrame) : List Element := .sync :: (dataBits n).map bitElement

/-- `ElemSeq(N)`: `REPS` copies of one repetition (R131). -/
def elemSeq (c : Params) (n : NibbleFrame) : List Element :=
  (List.replicate c.reps (repetition n)).flatten

/-- `Elem(N, e)`, the read primitive of the element space, by R131's three cases: 37 elements to a
repetition, the first of them the sync element. -/
def elem (c : Params) (n : NibbleFrame) (e : Nat) : Element :=
  match e % (c.nbits + 1) with
  | 0 => .sync
  | j + 1 => bitElement ((dataBits n).getD j false)

/-- `RL(N)`, the slots of one repetition (R31). -/
def repLen (c : Params) (n : NibbleFrame) : Nat :=
  c.syncw + c.w0 * (c.nbits - weight n) + c.w1 * weight n

/-- `FL(N)`, the slots of the Frame (R31). -/
def frameLen (c : Params) (n : NibbleFrame) : Nat := c.reps * repLen c n

/-- `PL(N)`, the sample pairs (R31). -/
def pairLen (c : Params) (n : NibbleFrame) : Nat := c.osr * frameLen c n

/-- `L(N)`, the 8-bit values: the length of the sample space and the cursor's modulus (R31, R57). -/
def streamLen (c : Params) (n : NibbleFrame) : Nat := 2 * pairLen c n

end Sys2Proof.Machine
end

