-- ==== Sys2Proof/Machine/Expander.lean ====
section
/-! DEFINITION. Stage P2, the pulse-width symbol expander: the pulse trains of the elements, the
Frame, and the read primitive of the slot space (R150 to R156). -/

namespace Sys2Proof.Machine

/-- `W(el)`, the length of an element in slots (R153). -/
def elemWidth (c : Params) : Element → Nat
  | .sync => c.syncw
  | .bit0 => c.w0
  | .bit1 => c.w1

/-- `Expand(el) = [1] ++ rep(W(el) - 1, [0])` (R150 to R153). -/
def expand (c : Params) (el : Element) : List Bool :=
  true :: List.replicate (elemWidth c el - 1) false

/-- `Frame(N)`: the expansions of all elements in order (R155). -/
def frame (c : Params) (n : NibbleFrame) : List Bool := (elemSeq c n).flatMap (expand c)

/-- The widths of the elements of one repetition, in order (R153, R154). -/
def repWidths (c : Params) (n : NibbleFrame) : List Nat := (repetition n).map (elemWidth c)

/-- `Off(N, m)`: where element `m` of a repetition starts, the sum of the widths before it
(R154). -/
def elemOffset (c : Params) (n : NibbleFrame) (m : Nat) : Nat := ((repWidths c n).take m).sum

/-- `Start(N, e)`: where element `e` of the Frame starts (R154). -/
def elemStart (c : Params) (n : NibbleFrame) (e : Nat) : Nat :=
  e / (c.nbits + 1) * repLen c n + elemOffset c n (e % (c.nbits + 1))

/-- R156's walk: inside the first element the position `q` falls into, the slot is 1 at the
element's first slot. -/
def walkSlot : List Nat → Nat → Bool
  | [], _ => false
  | w :: ws, q => if q < w then q == 0 else walkSlot ws (q - w)

/-- `Slot(N, s)`, computed without building the Frame (R156). -/
def slot (c : Params) (n : NibbleFrame) (s : Nat) : Bool :=
  walkSlot (repWidths c n) (s % repLen c n)

end Sys2Proof.Machine
end

