-- ==== Sys2Proof/Machine/Elements.lean ====
section
/-! DEFINITION. The table's ELEMENT rows: what stage P2 puts out for each element (R150 to R152,
log 8). -/

namespace Sys2Proof.Machine

/-- `SYNC` (R150). -/
def execSync (s : State) : Result := whenLive (emitTrain (expand Config.hw .sync)) s

/-- `BIT0` (R151). -/
def execBit0 (s : State) : Result := whenLive (emitTrain (expand Config.hw .bit0)) s

/-- `BIT1` (R152). -/
def execBit1 (s : State) : Result := whenLive (emitTrain (expand Config.hw .bit1)) s

end Sys2Proof.Machine
end

