-- ==== Sys2Proof/Machine/Flags.lean ====
section
/-! DEFINITION. The flags and the output pins as views of the state (R28, R29, R30, R34, R35). There
are no condition codes (R29). -/

namespace Sys2Proof.Machine

/-- The two-bit code of a fault (R30, R210). -/
def causeCode : Option Cause → BitVec 2
  | none => 0b00
  | some .emptyPull => 0b01
  | some .illegalCmd => 0b10

/-- `status[3:0] = {CAUSE, FAULT, LOADED}` (R30, D26). -/
def status (s : State) : BitVec 4 :=
  causeCode s.cause ++ BitVec.ofBool s.fault ++ BitVec.ofBool s.loaded

/-- `cmd_ready = NOT FAULT` (R34). -/
def cmdReady (s : State) : Bool := !s.fault

/-- The value and phase at the output port; nothing when `out_valid = 0`, where the content of the
two pins is unspecified and must not be used (R35, U8, log 6). -/
def delivered (s : State) : Option (Value × Phase) :=
  match s.out with
  | .value v ph => some (v, ph)
  | _ => none

/-- `out_valid` (R35). -/
def outValid (s : State) : Bool := (delivered s).isSome

/-- The phase bit: 0 for an I, 1 for a Q (R34). -/
def phaseBit : Phase → Bool
  | .i => false
  | .q => true

/-- The phase of an index of the sample space, and so `out_phase = CUR mod 2` (R25, R52). -/
def phaseOf (k : Nat) : Phase := if k % 2 = 0 then .i else .q

end Sys2Proof.Machine
end

