-- ==== Sys2Proof/Machine/Upsampler.lean ====
section
/-! DEFINITION. Stage P3, the IQ upsampler: the levels, one slot, the SampleBuffer, and the read
primitive of the sample space (R165 to R173). -/

namespace Sys2Proof.Machine

/-- The byte of a level (R6, R166). -/
def levelValue (c : Params) : Level → Value
  | .s8High => c.s8High
  | .s8Low => c.s8Low
  | .s8Q => c.s8Q
  | .u8High => c.u8High
  | .u8Low => c.u8Low
  | .u8Q => c.u8Q

/-- The half of the pair a level drives (R92). -/
def levelPhase : Level → Phase
  | .s8High => .i
  | .s8Low => .i
  | .s8Q => .q
  | .u8High => .i
  | .u8Low => .i
  | .u8Q => .q

/-- The in-phase level of a slot (R166). -/
def levelI : Fmt → Bool → Level
  | .s8, true => .s8High
  | .s8, false => .s8Low
  | .u8, true => .u8High
  | .u8, false => .u8Low

/-- The quadrature level, whatever the slot (R166). -/
def levelQ : Fmt → Level
  | .s8 => .s8Q
  | .u8 => .u8Q

/-- `Up(f, b)`: `OSR` identical pairs, I first (R167). -/
def up (c : Params) (f : Fmt) (b : Bool) : List Value :=
  (List.replicate c.osr [levelValue c (levelI f b), levelValue c (levelQ f)]).flatten

/-- `SampleBuffer(f, N)` (R170). -/
def sampleBuffer (c : Params) (f : Fmt) (n : NibbleFrame) : List Value :=
  (frame c n).flatMap (up c f)

/-- The level that entry `k` of the sample space holds (R52, R171): Q at odd `k`; at even `k` the I
level of slot `(k div 2) div OSR`. -/
def levelAt (c : Params) (f : Fmt) (n : NibbleFrame) (k : Nat) : Level :=
  match phaseOf k with
  | .q => levelQ f
  | .i => levelI f (slot c n (k / 2 / c.osr))

/-- `Sample(f, N, k)` (R171). At an index of `L(N)` or more, which no reachable cursor has (R27), the
pseudocode reads the slot space periodically (DEDUCED, log 11). -/
def sample (c : Params) (f : Fmt) (n : NibbleFrame) (k : Nat) : Value :=
  levelValue c (levelAt c f n k)

end Sys2Proof.Machine
end

