-- ==== Sys2Proof/Machine/Levels.lean ====
section
/-! DEFINITION. The table's LEVEL rows: what stage P3 puts out for each level (R92, R166, log 8). -/

namespace Sys2Proof.Machine

/-- The table row of a level (R92). -/
def levelRow : Level → Instr
  | .s8High => .s8High
  | .s8Low => .s8Low
  | .s8Q => .s8Q
  | .u8High => .u8High
  | .u8Low => .u8Low
  | .u8Q => .u8Q

/-- Put out a level: its byte on its half of the pair (R166). -/
def driveLevel (l : Level) (s : State) : State := emitLevel (levelValue Config.hw l) (levelPhase l) s

/-- `S8_HIGH` (R166): FMT = 0, I, slot 1. -/
def execS8High (s : State) : Result := whenLive (driveLevel .s8High) s

/-- `S8_LOW` (R166): FMT = 0, I, slot 0. -/
def execS8Low (s : State) : Result := whenLive (driveLevel .s8Low) s

/-- `S8_Q` (R166): FMT = 0, Q. -/
def execS8Q (s : State) : Result := whenLive (driveLevel .s8Q) s

/-- `U8_HIGH` (R166): FMT = 1, I, slot 1. -/
def execU8High (s : State) : Result := whenLive (driveLevel .u8High) s

/-- `U8_LOW` (R166): FMT = 1, I, slot 0. -/
def execU8Low (s : State) : Result := whenLive (driveLevel .u8Low) s

/-- `U8_Q` (R166): FMT = 1, Q. -/
def execU8Q (s : State) : Result := whenLive (driveLevel .u8Q) s

end Sys2Proof.Machine
end

