-- ==== Sys2Proof/Machine/Load.lean ====
section
/-! DEFINITION. The load commands LDN and LDR (R110, R114). -/

namespace Sys2Proof.Machine

/-- `LDN` (R110): the nine nibbles as they are; every payload is legal. -/
def execLdn (n : NibbleFrame) (s : State) : Result := whenLive (loadFrame n) s

/-- `LDR` (R114): the nibbles `Pack` makes of the four fields, whatever their values (R89). -/
def execLdr (id : BitVec 8) (channel : BitVec 2) (temp : BitVec 16) (humidity : BitVec 8)
    (s : State) : Result :=
  whenLive (loadFrame (pack Config.hw id channel temp humidity)) s

end Sys2Proof.Machine
end

