-- ==== Sys2Proof/Machine/Stream.lean ====
section
/-! DEFINITION. The strobe PULL (R186 to R189). -/

namespace Sys2Proof.Machine

/-- `(CUR + 1) mod L(N)` (R26, R186). -/
def advance (c : Params) (n : NibbleFrame) (cur : Cursor) : Cursor :=
  BitVec.ofNat 23 ((cur.toNat + 1) % streamLen c n)

/-- The normal PULL (R186): the value under the cursor with its phase, and the cursor one further. -/
def pullValue (c : Params) (s : State) : State :=
  deliver (sample c s.fmt s.nib s.cur.toNat) (phaseOf s.cur.toNat) (advance c s.nib s.cur) s

/-- What a PULL does in a live state: with a frame loaded the normal case (R186), with none the fault
EMPTY_PULL, before NIB is read (R187). -/
def pullEffect (s : State) : State :=
  if s.loaded then pullValue Config.hw s else raise .emptyPull s

/-- `PULL` (R186, R187); in a faulted state nothing (R188). It never waits (R189). -/
def execPull (s : State) : Result := whenLive pullEffect s

end Sys2Proof.Machine
end

