-- ==== Sys2Proof/Machine/Dispatch.lean ====
section
/-! DEFINITION. The dispatch: one arm per constructor of Instr, each one direct call of its
meaning. -/

namespace Sys2Proof.Machine

def exec (i : Instr) (s : State) : Host.Outcome State Fault Refusal :=
  match i with
  | .ldn n => Sys2Proof.Machine.execLdn n s
  | .ldr id channel temp humidity => Sys2Proof.Machine.execLdr id channel temp humidity s
  | .cfg fmt => Sys2Proof.Machine.execCfg fmt s
  | .start => Sys2Proof.Machine.execStart s
  | .pull => Sys2Proof.Machine.execPull s
  | .sync => Sys2Proof.Machine.execSync s
  | .bit0 => Sys2Proof.Machine.execBit0 s
  | .bit1 => Sys2Proof.Machine.execBit1 s
  | .s8High => Sys2Proof.Machine.execS8High s
  | .s8Low => Sys2Proof.Machine.execS8Low s
  | .s8Q => Sys2Proof.Machine.execS8Q s
  | .u8High => Sys2Proof.Machine.execU8High s
  | .u8Low => Sys2Proof.Machine.execU8Low s
  | .u8Q => Sys2Proof.Machine.execU8Q s

end Sys2Proof.Machine
end

