-- ==== Sys2Proof/Machine/Fetch.lean ====
section
/-! DEFINITION. From the input pins to an instruction: which event a cycle is (R35, R216), what each
event does (R11), and how a code word is presented to the machine. -/

namespace Sys2Proof.Machine

/-- Which event a cycle is, in R35's order: `rst`, a fault, `cmd_valid`, `pull`. -/
def eventOf (fault : Bool) (p : Pins) : Event :=
  if p.rst then .reset
  else if fault then .idle
  else if p.cmdValid then .cmd p.cmd
  else if p.pull then .pull
  else .idle

/-- A command word: its instruction, or the fault ILLEGAL_CMD and nothing else (R88, R212). -/
def runCmd (w : CmdWord) (s : State) : Result :=
  match decodeCmd w with
  | .ok i => exec i s
  | .error _ => whenLive (raise .illegalCmd) s

/-- What an event does (R11). -/
def runEvent (e : Event) (s : State) : Result :=
  match e with
  | .reset => .next (resetEvent s)
  | .cmd w => runCmd w s
  | .pull => exec .pull s
  | .idle => .next (idle s)

/-- A stage word: its instruction; bits that are no word of the tables are refused (log 8, log 9). In
a faulted state it is Idle, as everything but Reset is (R214). -/
def runStage (k : Code) (s : State) : Result :=
  if s.fault then .next (idle s)
  else match decode k with
    | .ok i => exec i s
    | .error _ => .refused .notACodeWord

/-- What one input does. -/
def runCycle (c : Cycle) (s : State) : Result :=
  match c with
  | .pins p => runEvent (eventOf s.fault p) s
  | .element slots => runStage (.element slots) s
  | .level fmt ph v => runStage (.level fmt ph v) s

/-- One step: the next input is consumed; with none left all pins are low, which is Idle (R35,
log 1). -/
def stepInputs (s : State) : Result :=
  match s.inputs with
  | [] => .next (idle s)
  | c :: rest => runCycle c (s.withInputs rest)

/-- All pins low (R35). -/
def lowPins : Pins := ⟨false, false, 0, false⟩

/-- A cycle with `rst = 1` (R240). -/
def resetCycle : Cycle := .pins { lowPins with rst := true }

/-- A cycle that presents a command word (R34). -/
def cmdCycle (w : CmdWord) : Cycle := .pins { lowPins with cmdValid := true, cmd := w }

/-- A cycle with the strobe (R34). -/
def pullCycle : Cycle := .pins { lowPins with pull := true }

/-- Neither `rst` nor a command nor the strobe: a cycle that is Idle in every state, whatever the `cmd`
pins hold (R35, R194). -/
def isIdleCycle : Cycle → Bool
  | .pins p => !p.rst && !p.cmdValid && !p.pull
  | .element _ => false
  | .level _ _ _ => false

/-- A cycle with all pins low. -/
def idleCycle : Cycle := .pins lowPins

/-- The input that presents a code word. -/
def codeCycle : Code → Cycle
  | .cmd w => cmdCycle w
  | .strobe => pullCycle
  | .element slots => .element slots
  | .level fmt ph v => .level fmt ph v

/-- Present a code word as the very next input. -/
def present (k : Code) (s : State) : State := s.withInputs (codeCycle k :: s.inputs)

end Sys2Proof.Machine
end

