-- ==== Sys2Proof/Machine/Step.lean ====
section
/-! DEFINITION. The step, and the host's way to place one word of the opcode table as the next
input. -/

namespace Sys2Proof.Machine

/-- One step of the machine: one event (R11). -/
def step (s : State) : Host.Outcome State Fault Refusal := stepInputs s

/-- `s` with the table's word presented as the next input (log 2). -/
def State.withFetchWord (s : State) (nbits w : Nat) : State := present (tableCode nbits w) s

end Sys2Proof.Machine
end

