-- ==== Sys2Proof/Machine/Counters.lean ====
section
/-! DEFINITION. The cursor as five counters (R135, R199): a machine an implementation may build in
place of the flat cursor. The normative meaning of PULL is the flat one (R186). -/

namespace Sys2Proof.Machine

/-- `(r, m, q, t, ph)`: repetition, element within it, slot within the element, tick within the slot,
phase (R199). -/
structure Counters where
  r : Nat
  m : Nat
  q : Nat
  t : Nat
  ph : Phase
  deriving DecidableEq, Repr

/-- All five at 0, as START and the loads leave them (R199). -/
def Counters.zero : Counters := ⟨0, 0, 0, 0, .i⟩

/-- Which element of a list of widths a position falls into, and where in it. -/
def findElem : List Nat → Nat → Nat × Nat
  | [], q => (0, q)
  | w :: ws, q => if q < w then (0, q) else ((findElem ws (q - w)).1 + 1, (findElem ws (q - w)).2)

/-- `Locate(N, k)` (R199). -/
def locate (c : Params) (n : NibbleFrame) (k : Nat) : Counters :=
  let s := k / 2 / c.osr
  let at_ := findElem (repWidths c n) (s % repLen c n)
  ⟨s / repLen c n, at_.1, at_.2, k / 2 % c.osr, phaseOf k⟩

/-- The index the counters stand for: `k = 2*(OSR*(r*RL + Off(m) + q) + t) + ph` (R199). -/
def counterIndex (c : Params) (n : NibbleFrame) (x : Counters) : Nat :=
  2 * (c.osr * (x.r * repLen c n + elemOffset c n x.m + x.q) + x.t) + (phaseBit x.ph).toNat

/-- `W(m)`, the width of the element within the repetition: the sync width for 0, the width of data
bit `m - 1` otherwise (R199). -/
def counterWidth (c : Params) (n : NibbleFrame) (m : Nat) : Nat := elemWidth c (elem c n m)

/-- One PULL on the counters (R199). -/
def counterNext (c : Params) (n : NibbleFrame) (x : Counters) : Counters :=
  match x.ph with
  | .i => { x with ph := .q }
  | .q =>
    if x.t < c.osr - 1 then { x with t := x.t + 1, ph := .i }
    else if x.q < counterWidth c n x.m - 1 then { x with q := x.q + 1, t := 0, ph := .i }
    else if x.m < c.nbits then { x with m := x.m + 1, q := 0, t := 0, ph := .i }
    else if x.r < c.reps - 1 then ⟨x.r + 1, 0, 0, 0, .i⟩
    else Counters.zero

/-- The value delivered at the counters: `Q(FMT)` when the phase is 1, `I(FMT, (q = 0))` when it is
0 (R199). -/
def counterValue (c : Params) (f : Fmt) (x : Counters) : Value :=
  match x.ph with
  | .q => levelValue c (levelQ f)
  | .i => levelValue c (levelI f (x.q == 0))

end Sys2Proof.Machine
end

