-- ==== Sys2Proof/Machine/Receiver.lean ====
section
/-! DEFINITION. Reading the stream back: the decoder of the slot stream (R91) and the inverse
thresholding of the levels (R93). A consumer's functions; the block does not compute them. -/

namespace Sys2Proof.Machine

/-- Cut a slot sequence before every 1: how many 0s stand before the first 1, and for each 1 how many
0s follow it (R91). -/
def cutSlots : List Bool → Nat × List Nat
  | [] => (0, [])
  | true :: bs => (0, (cutSlots bs).1 :: (cutSlots bs).2)
  | false :: bs => ((cutSlots bs).1 + 1, (cutSlots bs).2)

/-- The element with a given number of 0s after its 1 (R91). -/
def classify (c : Params) (zeros : Nat) : Option Element :=
  if zeros = c.w0 - 1 then some .bit0
  else if zeros = c.w1 - 1 then some .bit1
  else if zeros = c.syncw - 1 then some .sync
  else none

/-- The elements of a slot sequence that begins with a 1 (R91). DESIGN CHOICE (log 17): where a sequence
begins with a 0, or a piece has a number of 0s that no Frame has, R91 gives no answer, and the answer
here is none for the whole sequence. -/
def decodeSlots (c : Params) (slots : List Bool) : Option (List Element) :=
  if (cutSlots slots).1 = 0 then (cutSlots slots).2.mapM (classify c) else none

/-- The data bits after each SYNC, and those before the first (R91). -/
def splitAtSync : List Element → List Bool × List (List Bool)
  | [] => ([], [])
  | .sync :: es => ([], (splitAtSync es).1 :: (splitAtSync es).2)
  | .bit0 :: es => (false :: (splitAtSync es).1, (splitAtSync es).2)
  | .bit1 :: es => (true :: (splitAtSync es).1, (splitAtSync es).2)

/-- A nibble from four bits, most significant first (R91). -/
def bitsNibble (b3 b2 b1 b0 : Bool) : Nibble :=
  BitVec.ofBool b3 ++ BitVec.ofBool b2 ++ BitVec.ofBool b1 ++ BitVec.ofBool b0

/-- Bits taken four at a time, most significant first (R91); none if some are left over. -/
def groupNibbles : List Bool → Option (List Nibble)
  | [] => some []
  | b3 :: b2 :: b1 :: b0 :: bs => (groupNibbles bs).map (bitsNibble b3 b2 b1 b0 :: ·)
  | _ => none

/-- Nine nibbles are a NibbleFrame. -/
def nibblesFrame : List Nibble → Option NibbleFrame
  | [a, b, c, d, e, f, g, h, i] => some ⟨a, b, c, d, e, f, g, h, i⟩
  | _ => none

/-- The NibbleFrame of one repetition's data bits. -/
def bitsFrame (bits : List Bool) : Option NibbleFrame := (groupNibbles bits).bind nibblesFrame

/-- The NibbleFrames a slot sequence carries, one per SYNC (R91). DESIGN CHOICE (log 17): R91 speaks of
the data elements after each SYNC only. Data elements before the first SYNC (a stream cut in
mid-repetition, where R251 lets a receiver wait for the next SYNC), or a repetition without its 36
data elements, make the answer none for the whole sequence. -/
def receive (c : Params) (slots : List Bool) : Option (List NibbleFrame) :=
  (decodeSlots c slots).bind fun es =>
    if (splitAtSync es).1 = [] then (splitAtSync es).2.mapM bitsFrame else none

/-- One decision of R93: the slot is 1 if and only if the I value is the format's high level. -/
def threshold (c : Params) (f : Fmt) (v : Value) : Bool := v == levelValue c (levelI f true)

/-- The slots of a stream of values that starts at an even index: one decision per `OSR` pairs
(R93). `n` is how many slots to take; one for which there is no value reads as 0 (DESIGN CHOICE,
log 17). -/
def thresholdSlots (c : Params) (f : Fmt) (n : Nat) (values : List Value) : List Bool :=
  (List.range n).map fun s => threshold c f (values.getD (2 * c.osr * s) 0)

end Sys2Proof.Machine
end

