-- ==== Sys2Proof/Machine/Script.lean ====
section
/-! DEFINITION. Runs and what is observed of them (R244), and the script lines and
pseudo-instructions of R94 and R95. -/

namespace Sys2Proof.Machine

/-- What a run shows: the values delivered, each with its phase, in order, and the final state, whose
`status` the host reads (R244). Nothing if a step stops. -/
abbrev Observed := Option (List (Value × Phase) × State)

/-- `n` steps. -/
def runFor : Nat → State → Observed
  | 0, s => some ([], s)
  | n + 1, s =>
    match step s with
    | .next t => (runFor n t).map fun x => ((delivered t).toList ++ x.1, x.2)
    | _ => none

/-- Drive these inputs next and run them. -/
def runInputs (cs : List Cycle) (s : State) : Observed :=
  runFor cs.length (s.withInputs (cs ++ s.inputs))

/-- A script line (R94) or pseudo-instruction (R95). -/
inductive Line where
  | reset
  | ldn (n : NibbleFrame)
  | ldr (id : BitVec 8) (channel : BitVec 2) (temp : BitVec 16) (humidity : BitVec 8)
  | cfg (fmt : Fmt)
  | start
  | pull
  | idle
  | raw (w : CmdWord)
  | fill (n : Nat)
  | dump
  deriving DecidableEq, Repr

/-- The cycles of a line; `DUMP` pulls as many values as the sample space of the frame `n` has
(R94, R95). -/
def lineCycles (n : NibbleFrame) : Line → List Cycle
  | .reset => [resetCycle]
  | .ldn m => [cmdCycle (encodeLdn m)]
  | .ldr id channel temp humidity => [cmdCycle (encodeLdr id channel temp humidity)]
  | .cfg fmt => [cmdCycle (encodeCfg fmt)]
  | .start => [cmdCycle encodeStart]
  | .pull => [pullCycle]
  | .idle => [idleCycle]
  | .raw w => [cmdCycle w]
  | .fill k => List.replicate k pullCycle
  | .dump => cmdCycle encodeStart :: List.replicate (streamLen Config.hw n) pullCycle

/-- Run one line. -/
def runLine (l : Line) (s : State) : Observed := runInputs (lineCycles s.nib l) s

/-- Run a script, line after line. -/
def runScript : List Line → State → Observed
  | [], s => some ([], s)
  | l :: ls, s =>
    (runLine l s).bind fun x => (runScript ls x.2).map fun y => (x.1 ++ y.1, y.2)

end Sys2Proof.Machine
end

