-- ==== Sys2Proof/Safety.lean ====
section
/-! DEFINITION. What counts as a safe state and a good run: the invariants of the state (R27, R30,
R37), the good end of a run (R244), the host's duties as premises (R225, R243), and the ranges of a
valid reading (R121). -/

namespace Sys2Proof

open Machine

/-- The invariant of the state. CAUSE is set exactly when FAULT is (R30, R37); a loaded frame's cursor
is inside its sample space (R27); before the first load the cursor is 0 (R190). -/
structure StateInv (s : State) : Prop where
  fault_cause : s.fault = s.cause.isSome
  cur_lt : s.loaded = true → s.cur.toNat < streamLen Config.hw s.nib
  cur_zero : s.loaded = false → s.cur = 0

/-- The end of a good run (R244). -/
def Good (s : State) : Prop := s.fault = false

/-- The input is a clock cycle of the hardware's pins, no stage word (log 8). -/
def IsPins (c : Cycle) : Prop := ∃ p, c = .pins p

/-- The input is a clock cycle without `rst`. -/
def NoReset (c : Cycle) : Prop := ∃ p, c = .pins p ∧ p.rst = false

/-- The ranges the configuration collaborator checks before it sends a reading (R121); the hardware
checks none of them (R89). -/
def ValidReading (channel : BitVec 2) (temp : BitVec 16) (humidity : BitVec 8) : Prop :=
  1 ≤ channel.toNat ∧ -2047 ≤ temp.toInt ∧ temp.toInt ≤ 2047 ∧ humidity.toNat ≤ 100

/-- Two states that agree on everything but the content of NIB. -/
def SameButNib (s t : State) : Prop := t = s.withNib t.nib

end Sys2Proof
end

