-- ==== Sys2Proof/Certificates/Slice0/Obligations.lean ====
section
/-! DEFINITION. The statements for the provers. A docstring names the rules a statement formalises;
where a rule carries one of the spec's own decisions (D<n>) or rests on a log entry, it says so. -/

open Sys2Proof Sys2Proof.Machine

/-! ## The field packer -/

/-- R115: the identity nibbles are the quotient and the remainder by 16, for every id; 244 gives
15 and 4. -/
def Obligations.IdentityNibbles : Prop :=
  (∀ id ch t h, (pack Config.hw id ch t h).n0.toNat = id.toNat / 16 ∧
    (pack Config.hw id ch t h).n1.toNat = id.toNat % 16) ∧
  (∀ ch t h, (pack Config.hw 244 ch t h).n0 = 15 ∧ (pack Config.hw 244 ch t h).n1 = 4)

/-- R117: the humidity nibbles are plain binary, 20 gives (1, 4); every value is loaded, valid or
not. -/
def Obligations.HumidityNibbles : Prop :=
  (∀ id ch t h, (pack Config.hw id ch t h).n7.toNat = h.toNat / 16 ∧
    (pack Config.hw id ch t h).n8.toNat = h.toNat % 16) ∧
  (∀ id ch t, (pack Config.hw id ch t 20).n7 = 1 ∧ (pack Config.hw id ch t 20).n8 = 4) ∧
  (∀ id ch t h s, s.fault = false → ∃ u, exec (.ldr id ch t h) s = .next u ∧
    u.loaded = true ∧ u.nib = pack Config.hw id ch t h)

/-- R119: the marker nibble is 0xF for every reading. -/
def Obligations.MarkerNibble : Prop :=
  ∀ id ch t h, (pack Config.hw id ch t h).n6 = 0xF

/-- R118 (decision D5): the channel nibble is 7 + channel; it lies in [8, 10] for the valid channels
and is 7 for channel 0. -/
def Obligations.ChannelNibble : Prop :=
  (∀ id ch t h, (pack Config.hw id ch t h).n2.toNat = 7 + ch.toNat) ∧
  (∀ id ch t h, 1 ≤ ch.toNat → 8 ≤ (pack Config.hw id ch t h).n2.toNat ∧
    (pack Config.hw id ch t h).n2.toNat ≤ 10) ∧
  (∀ id t h, (pack Config.hw id 0 t h).n2 = 7)

/-- R116 case (a): under every temperature map that the source allows, a reading from 0 to 2047
tenths is the three hexadecimal digits of its number; this hardware's map is one of them. -/
def Obligations.SettledTemperatureNibbles : Prop :=
  Config.hw.TempSettled ∧
  ∀ (c : Params) id ch (t : BitVec 16) h, c.TempSettled → 0 ≤ t.toInt → t.toInt ≤ 2047 →
    256 * (pack c id ch t h).n3.toNat + 16 * (pack c id ch t h).n4.toNat
      + (pack c id ch t h).n5.toNat = t.toNat

/-- R116 cases (b) and (c) (decision D4, log 7: the spec's own choice, not the source's): every
temperature is packed as the low 12 bits of its two's complement, so `t` and `t + 4096` give the
same nibbles. -/
def Obligations.TemperatureSliceOfEveryReading : Prop :=
  ∀ id ch (t : BitVec 16) h,
    256 * (pack Config.hw id ch t h).n3.toNat + 16 * (pack Config.hw id ch t h).n4.toNat
        + (pack Config.hw id ch t h).n5.toNat = t.toNat % 4096 ∧
      pack Config.hw id ch (t + 4096) h = pack Config.hw id ch t h

/-- R111: LDR is LDN after Pack, from every state. -/
def Obligations.LdrIsLdnAfterPack : Prop :=
  ∀ id ch t h s, exec (.ldr id ch t h) s = exec (.ldn (pack Config.hw id ch t h)) s

/-! ## The frame encoder -/

/-- R130: data bit `4*i + j` is bit `3 - j` of nibble `i`; there are 36; read left to right they are
the number `{N[0], ..., N[8]}`; all-zero nibbles give no 1 and all-0xF nibbles 36; the worked
example. -/
def Obligations.DataBitsInOrder : Prop :=
  (∀ n, (dataBits n).length = 36) ∧
  (∀ n (i j : Nat), i < 9 → j < 4 →
    (dataBits n)[4 * i + j]? = ((nibbleList n)[i]?).map fun x => x.getLsbD (3 - j)) ∧
  (∀ n, (dataBits n).foldl (fun acc b => 2 * acc + b.toNat) 0 = n.payload.toNat) ∧
  (∀ n, weight n = (dataBits n).count true) ∧
  dataBits ⟨0, 0, 0, 0, 0, 0, 0, 0, 0⟩ = List.replicate 36 false ∧
  dataBits ⟨15, 15, 15, 15, 15, 15, 15, 15, 15⟩ = List.replicate 36 true ∧
  dataBits ⟨15, 4, 8, 1, 0, 7, 15, 1, 4⟩
    = [true, true, true, true, false, true, false, false, true, false, false, false,
        false, false, false, true, false, false, false, false, false, true, true, true,
        true, true, true, true, false, false, false, true, false, true, false, false] ∧
  weight ⟨15, 4, 8, 1, 0, 7, 15, 1, 4⟩ = 16

/-- R131: the element sequence is twelve times the sync element followed by the 36 data elements, 444
in all, and `Elem` reads it. -/
def Obligations.ElementSequence : Prop :=
  ∀ n, elemSeq Config.hw n
      = (List.replicate 12 (.sync :: (dataBits n).map fun b => if b then .bit1 else .bit0)).flatten ∧
    (elemSeq Config.hw n).length = 444 ∧
    ∀ e < 444, (elemSeq Config.hw n)[e]? = some (elem Config.hw n e) ∧
      (e % 37 = 0 → elem Config.hw n e = .sync) ∧
      ∀ j, e % 37 = j + 1 →
        ((dataBits n)[j]? = some true → elem Config.hw n e = .bit1) ∧
        ((dataBits n)[j]? = some false → elem Config.hw n e = .bit0)

/-- R133: of the 444 elements 12 are SYNC, 12 w are BIT1 and 12 (36 - w) are BIT0. -/
def Obligations.ElementCounts : Prop :=
  ∀ n, (elemSeq Config.hw n).count .sync = 12 ∧
    (elemSeq Config.hw n).count .bit1 = 12 * weight n ∧
    (elemSeq Config.hw n).count .bit0 = 12 * (36 - weight n)

/-! ## The symbol expander -/

/-- R151, R152: the pulse trains and the widths of the two data elements. -/
def Obligations.DataElementTrains : Prop :=
  expand Config.hw .bit0 = [true, false, false] ∧ elemWidth Config.hw .bit0 = 3 ∧
  expand Config.hw .bit1 = [true, false, false, false, false] ∧ elemWidth Config.hw .bit1 = 5

/-- R150: the sync train and its width, and that it is the first element of a repetition and only the first. -/
def Obligations.SyncTrain : Prop :=
  expand Config.hw .sync = [true, false, false, false, false, false, false, false, false] ∧
  elemWidth Config.hw .sync = 9 ∧
  ∀ n, (repetition n).head? = some .sync ∧ (repetition n).count .sync = 1

/-- R31, R155, C7: the lengths. -/
def Obligations.StreamLengths : Prop :=
  ∀ n, (frame Config.hw n).length = 1404 + 24 * weight n ∧
    frameLen Config.hw n = (frame Config.hw n).length ∧
    (∀ f, (sampleBuffer Config.hw f n).length = streamLen Config.hw n) ∧
    streamLen Config.hw n = 2808000 + 48000 * weight n ∧
    streamLen Config.hw n ≤ 4536000

/-- R155, R156: `Slot` reads the Frame, at every oversampling ratio and repetition count. -/
def Obligations.SlotReadsFrame : Prop :=
  ∀ (o r : Nat) (n : NibbleFrame),
    (frame (Config.variant o r) n).length = frameLen (Config.variant o r) n ∧
    ∀ s < frameLen (Config.variant o r) n,
      (frame (Config.variant o r) n)[s]? = some (slot (Config.variant o r) n s)

/-- R154, R156: a slot is 1 exactly where an element starts. -/
def Obligations.SlotOneAtElementStarts : Prop :=
  ∀ n, ∀ s < frameLen Config.hw n,
    slot Config.hw n s = true ↔ ∃ e < 444, s = elemStart Config.hw n e

/-- R157: how every Frame begins and ends, and that two 1 slots are never adjacent. -/
def Obligations.FrameShape : Prop :=
  ∀ n, slot Config.hw n 0 = true ∧
    (∀ s, 1 ≤ s → s ≤ 8 → slot Config.hw n s = false) ∧
    slot Config.hw n 9 = true ∧
    slot Config.hw n (frameLen Config.hw n - 1) = false ∧
    slot Config.hw n (frameLen Config.hw n - (if n.n8.getLsbD 0 then 5 else 3)) = true ∧
    (∀ s, frameLen Config.hw n - (if n.n8.getLsbD 0 then 5 else 3) < s →
      s < frameLen Config.hw n → slot Config.hw n s = false) ∧
    ∀ s, s + 1 < frameLen Config.hw n → slot Config.hw n s = true →
      slot Config.hw n (s + 1) = false

/-- R91: cutting the Frame before every 1 and classifying the pieces by their number of 0s gives back
the element sequence, and from it the nibbles, once per repetition. -/
def Obligations.ReceiverInvertsFrame : Prop :=
  ∀ (o r : Nat) (n : NibbleFrame),
    decodeSlots (Config.variant o r) (frame (Config.variant o r) n)
        = some (elemSeq (Config.variant o r) n) ∧
      receive (Config.variant o r) (frame (Config.variant o r) n) = some (List.replicate r n)

/-! ## The upsampler -/

/-- R166: the level tables. -/
def Obligations.LevelTables : Prop :=
  levelValue Config.hw (levelI .s8 true) = 127 ∧ levelValue Config.hw (levelI .s8 false) = 0 ∧
  levelValue Config.hw (levelI .u8 true) = 255 ∧ levelValue Config.hw (levelI .u8 false) = 127 ∧
  levelValue Config.hw (levelQ .s8) = 0 ∧ levelValue Config.hw (levelQ .u8) = 127

/-- R167: one slot is 2000 values, the I level at the even places and the Q level at the odd ones. -/
def Obligations.OneSlotUpsampled : Prop :=
  ∀ f b, (up Config.hw f b).length = 2000 ∧
    ∀ k < 2000, (up Config.hw f b)[k]? =
      some (levelValue Config.hw (if k % 2 = 0 then levelI f b else levelQ f))

/-- R170, R171: `Sample` reads the SampleBuffer, at every oversampling ratio from 1 on and every
repetition count. -/
def Obligations.SampleReadsBuffer : Prop :=
  ∀ (o r : Nat) (f : Fmt) (n : NibbleFrame), 1 ≤ o →
    (sampleBuffer (Config.variant o r) f n).length = streamLen (Config.variant o r) n ∧
    ∀ k < streamLen (Config.variant o r) n,
      (sampleBuffer (Config.variant o r) f n)[k]? = some (sample (Config.variant o r) f n k)

/-- R173: the two encodings have the same length and the same modulation. -/
def Obligations.SameModulation : Prop :=
  ∀ n, (sampleBuffer Config.hw .s8 n).length = (sampleBuffer Config.hw .u8 n).length ∧
    (∀ f, streamLen Config.hw n = (sampleBuffer Config.hw f n).length) ∧
    ∀ k < streamLen Config.hw n, sample Config.hw .s8 n k = 127 ↔ sample Config.hw .u8 n k = 255

/-- R93: thresholding the I values gives back the slots; high is the same as greater than low; the Q
value is the same whatever the slot. -/
def Obligations.ThresholdInvertsRender : Prop :=
  ∀ (o r : Nat) (f : Fmt) (n : NibbleFrame), 1 ≤ o →
    thresholdSlots (Config.variant o r) f (frameLen (Config.variant o r) n)
        (sampleBuffer (Config.variant o r) f n) = frame (Config.variant o r) n ∧
    ∀ p < pairLen (Config.variant o r) n,
      (slot (Config.variant o r) n (p / o) = true ↔
        sample (Config.variant o r) f n (2 * p) = levelValue (Config.variant o r) (levelI f true)) ∧
      (slot (Config.variant o r) n (p / o) = true ↔
        (levelValue (Config.variant o r) (levelI f false)).toNat
            < (sample (Config.variant o r) f n (2 * p)).toNat) ∧
      sample (Config.variant o r) f n (2 * p + 1) = levelValue (Config.variant o r) (levelQ f)

/-! ## Encoding -/

/-- R82 to R85, R90, R92: every instruction is decoded from its own code word, with every operand at
every value. -/
def Obligations.DecodeEncode : Prop :=
  ∀ i : Instr, decode (encode i) = .ok i

/-- R96: a code word has one meaning at most and a meaning one code word. -/
def Obligations.EncodeDecode : Prop :=
  ∀ (k : Code) (i : Instr), decode k = .ok i → encode i = k

/-- R88, R96: the decoder is total; it accepts exactly the words that the prose calls legal. -/
def Obligations.DecodesExactlyLegalWords : Prop :=
  ∀ k : Code, (∃ i, decode k = .ok i) ↔ k.wellFormed = true

/-- R86: no word matches two rows of the table. -/
def Obligations.CommandRowsDisjoint : Prop :=
  cmdRows.Pairwise fun a b => ∀ w, ¬(a.matches w = true ∧ b.matches w = true)

/-- R96 (derived there from R80 to R88): the worked encodings. -/
def Obligations.WorkedEncodings : Prop :=
  decode (.cmd 0x1F48107F14) = .ok (.ldn ⟨15, 4, 8, 1, 0, 7, 15, 1, 4⟩) ∧
  decode (.cmd 0x2F44041C50) = .ok (.ldr 244 1 263 20) ∧
  decode (.cmd 0x2003FFEFFC) = .ok (.ldr 0 0 (-5) 255) ∧
  decode (.cmd 0x3000000001) = .ok (.cfg .u8) ∧
  decode (.cmd 0x2F44041C51) = .error .reservedBitSet ∧
  decode (.cmd 0x3000000002) = .error .reservedBitSet ∧
  decode (.cmd 0x4000000001) = .error .reservedBitSet ∧
  decode (.cmd 0x0000000000) = .error .illegalOpcode

/-! ## What each instruction does: its next state, and with it what it leaves unchanged -/

/-- R110 (decisions D2, D10): LDN. -/
def Obligations.LdnLoadsNibbles : Prop :=
  ∀ n s, s.fault = false →
    exec (.ldn n) s = .next { s with nib := n, loaded := true, cur := 0, out := .quiet }

/-- R114, R113, R116 (decisions D3, D4, D10): LDR, its nibbles written out. -/
def Obligations.LdrLoadsPackedReading : Prop :=
  ∀ id ch t h s, s.fault = false →
    exec (.ldr id ch t h) s = .next { s with
      nib := ⟨id.extractLsb' 4 4, id.extractLsb' 0 4, 7 + ch.setWidth 4, t.extractLsb' 8 4,
        t.extractLsb' 4 4, t.extractLsb' 0 4, 0xF, h.extractLsb' 4 4, h.extractLsb' 0 4⟩,
      loaded := true, cur := 0, out := .quiet }

/-- R192 (decisions D8, D11): CFG keeps the cursor. -/
def Obligations.CfgSetsFormat : Prop :=
  ∀ f s, s.fault = false → exec (.cfg f) s = .next { s with fmt := f, out := .quiet }

/-- R190 (decision D9): START, before a load as after one. -/
def Obligations.StartZeroesCursor : Prop :=
  ∀ s, s.fault = false → exec .start s = .next { s with cur := 0, out := .quiet }

/-- R186 and R27 (decision D7): PULL delivers the entry of the SampleBuffer under the cursor and
moves the cursor one further, modulo the buffer's length. -/
def Obligations.PullDeliversSample : Prop :=
  ∀ s, s.fault = false → s.loaded = true → s.cur.toNat < streamLen Config.hw s.nib →
    ∃ v, (sampleBuffer Config.hw s.fmt s.nib)[s.cur.toNat]? = some v ∧
      exec .pull s = .next { s with
        out := .value v (if s.cur.toNat % 2 = 0 then .i else .q)
        cur := if s.cur.toNat + 1 = streamLen Config.hw s.nib then 0 else s.cur + 1 }

/-- R187 (decision D12): PULL with nothing loaded takes the fault EMPTY_PULL. -/
def Obligations.PullEmptyFaults : Prop :=
  ∀ s, s.fault = false → s.loaded = false →
    exec .pull s = .next { s with fault := true, cause := some .emptyPull, out := .quiet }

/-- R150 to R152 and log 8 (the model's choice): run on its own, an element puts out its train and
changes nothing else. -/
def Obligations.ElementsPutOutTrains : Prop :=
  ∀ s, s.fault = false →
    exec .sync s = .next { s with
      out := .train [true, false, false, false, false, false, false, false, false] } ∧
    exec .bit0 s = .next { s with out := .train [true, false, false] } ∧
    exec .bit1 s = .next { s with out := .train [true, false, false, false, false] }

/-- R166 and log 8 (the model's choice): run on its own, a level puts out its byte on its half of the
pair and changes nothing else. -/
def Obligations.LevelsPutOutBytes : Prop :=
  ∀ s, s.fault = false →
    exec .s8High s = .next { s with out := .level 0x7F .i } ∧
    exec .s8Low s = .next { s with out := .level 0x00 .i } ∧
    exec .s8Q s = .next { s with out := .level 0x00 .q } ∧
    exec .u8High s = .next { s with out := .level 0xFF .i } ∧
    exec .u8Low s = .next { s with out := .level 0x7F .i } ∧
    exec .u8Q s = .next { s with out := .level 0x7F .q }

/-- R35, R120, R188, R214 (decision D14; for the stage words log 8): while FAULT = 1 no instruction
changes anything and nothing is put out. -/
def Obligations.FaultedInstructionIsIdle : Prop :=
  ∀ i s, s.fault = true → exec i s = .next { s with out := .quiet }

/-- R171, R186 (for the level rows as instructions log 8, the model's choice): the value and phase that
a PULL delivers are what the level row that FMT, NIB and the cursor name puts out. -/
def Obligations.PullPutsOutItsLevel : Prop :=
  ∀ s, s.fault = false → s.loaded = true → s.cur.toNat < streamLen Config.hw s.nib →
    ∃ t v ph, exec .pull s = .next t ∧ t.out = .value v ph ∧
      exec (levelRow (levelAt Config.hw s.fmt s.nib s.cur.toNat)) s
        = .next { s with out := .level v ph }

/-! ## The step -/

/-- R35 (decisions D1, D16): with the cycle's pins low but for a command word, the step is the
instruction the word decodes to, on the state whose inputs have moved on; so with the strobe, and
with a stage word (log 8). -/
def Obligations.StepRunsDecodedInstruction : Prop :=
  (∀ s rest w pull i, s.fault = false → s.inputs = .pins ⟨false, true, w, pull⟩ :: rest →
    decode (.cmd w) = .ok i → step s = exec i { s with inputs := rest }) ∧
  (∀ s rest w, s.fault = false → s.inputs = .pins ⟨false, false, w, true⟩ :: rest →
    step s = exec .pull { s with inputs := rest }) ∧
  (∀ s rest slots i, s.fault = false → s.inputs = .element slots :: rest →
    decode (.element slots) = .ok i → step s = exec i { s with inputs := rest }) ∧
  (∀ s rest f ph v i, s.fault = false → s.inputs = .level f ph v :: rest →
    decode (.level f ph v) = .ok i → step s = exec i { s with inputs := rest })

/-- The host's way to place a word (log 2): the very next step runs the instruction that
`decodeTableWord` reads. -/
def Obligations.StepRunsPlacedWord : Prop :=
  ∀ s nbits w i, s.fault = false → decodeTableWord nbits w = some i →
    step (s.withFetchWord nbits w) = exec i s

/-- R212, R213, R88 (decisions D13, D14): an illegal command word takes the fault ILLEGAL_CMD and has
no other effect, whatever the strobe. -/
def Obligations.IllegalWordFaults : Prop :=
  ∀ s rest w pull, s.fault = false → s.inputs = .pins ⟨false, true, w, pull⟩ :: rest →
    cmdLegal w = false →
      step s = .next { s with
        inputs := rest, fault := true, cause := some .illegalCmd, out := .quiet }

/-- Log 9 (the model's choice, no rule of the spec): bits presented to stage P2 or P3 that are no
element and no level of the tables stop the step by name. No clock cycle of the hardware does. -/
def Obligations.StageWordsThatStop : Prop :=
  (∀ s rest slots, s.fault = false → s.inputs = .element slots :: rest →
    elementLegal slots = false → step s = .refused .notACodeWord) ∧
  (∀ s rest f ph v, s.fault = false → s.inputs = .level f ph v :: rest →
    levelLegal f ph v = false → step s = .refused .notACodeWord)

/-- R36, R240 (decision D17; NIB and `draws` log 4): what a Reset cycle leaves, from every state and
whatever the other pins, and that State.reset is such a state. -/
def Obligations.ResetLeaves : Prop :=
  (∀ s rest p, s.inputs = .pins p :: rest → p.rst = true →
    ∃ t, step s = .next t ∧ t.loaded = false ∧ t.fault = false ∧ t.cause = none ∧ t.fmt = .s8 ∧
      t.cur = 0 ∧ t.out = .quiet ∧ t.inputs = rest ∧ status t = 0) ∧
  (State.reset.loaded = false ∧ State.reset.fault = false ∧ State.reset.cause = none ∧
    State.reset.fmt = .s8 ∧ State.reset.cur = 0 ∧ State.reset.out = .quiet)

/-- R30, D26: the status pins and their codes. -/
def Obligations.StatusPins : Prop :=
  ∀ s, (status s).getLsbD 0 = s.loaded ∧ (status s).getLsbD 1 = s.fault ∧
    (status s).extractLsb' 2 2 = (match s.cause with
      | none => 0b00 | some .emptyPull => 0b01 | some .illegalCmd => 0b10) ∧
    (status s).extractLsb' 2 2 ≠ 0b11

/-- R194: an idle cycle changes nothing and delivers nothing; so does a state with no input left
(log 1). -/
def Obligations.IdleChangesNothing : Prop :=
  (∀ s rest p, s.inputs = .pins p :: rest → p.rst = false →
    (s.fault = true ∨ p.cmdValid = false ∧ p.pull = false) →
    step s = .next { s with inputs := rest, out := .quiet }) ∧
  (∀ s, s.inputs = [] → step s = .next { s with out := .quiet })

/-- R11, R189, R213: on the hardware's pins the step is total: it answers a next state in every state
on every cycle, and delivers at most one value, namely in a Pull. -/
def Obligations.StepTotalOnPins : Prop :=
  ∀ s, (∀ c ∈ s.inputs, IsPins c) →
    ∃ t, step s = .next t ∧ t.inputs = s.inputs.tail ∧
      (outValid t = true ↔ ∃ p, s.inputs.head? = some (.pins p) ∧
        eventOf s.fault p = .pull ∧ s.loaded = true)

/-! ## Invariants and rules of the whole machine -/

/-- R27, R30, R37: the invariant is kept by every step, from every state that has it. -/
def Obligations.StepKeepsInvariant : Prop :=
  ∀ s t, StateInv s → step s = .next t → StateInv t

/-- R36: the invariant holds after reset. -/
def Obligations.ResetHasInvariant : Prop := StateInv State.reset

/-- R28, R29, R30, R215, R240: FAULT and LOADED are cleared and CAUSE is changed from a fault's code
only by a cycle with `rst`. -/
def Obligations.OnlyResetClears : Prop :=
  ∀ s t, step s = .next t → (∀ p, s.inputs.head? = some (.pins p) → p.rst = false) →
    (s.fault = true → t.fault = true ∧ t.cause = s.cause) ∧ (s.loaded = true → t.loaded = true)

/-- R27, R50 (NIB after a Reset: log 4): NIB changes only in a step that also zeroes CUR, and then as a
whole, by a Reset or by a load that is taken: a command word with `rst` and FAULT 0. -/
def Obligations.NibChangesOnlyByLoadOrReset : Prop :=
  ∀ s t, step s = .next t → t.nib ≠ s.nib →
    t.cur = 0 ∧ ∃ p, s.inputs.head? = some (.pins p) ∧
      (p.rst = true ∨ p.rst = false ∧ s.fault = false ∧ p.cmdValid = true ∧
        ((∃ n, decode (.cmd p.cmd) = .ok (.ldn n) ∧ t.nib = n) ∨
          ∃ id ch tt h, decode (.cmd p.cmd) = .ok (.ldr id ch tt h) ∧
            t.nib = pack Config.hw id ch tt h))

/-- R26: how the cursor moves, event by event (which event a cycle is: R35): Reset, LDN, LDR and START
zero it; a PULL that delivers moves it one further modulo the buffer's length; a CFG, an illegal word,
a PULL that faults and an Idle leave it; it never wraps at 2^23. Two clauses are the model's choice and
no rule of the spec: that the inputs which are no clock cycle leave the cursor (the second clause: stage
words log 8, no input left log 1), and that every row of the table, the element and level rows included,
leaves it in a faulted state (the third clause: log 8, log 15). -/
def Obligations.CursorMoves : Prop :=
  (∀ s rest p, s.inputs = .pins p :: rest → ∃ t, step s = .next t ∧
    (eventOf s.fault p = .reset → t.cur = 0) ∧
    (∀ w i, eventOf s.fault p = .cmd w → decode (.cmd w) = .ok i → (∀ f, i ≠ .cfg f) → t.cur = 0) ∧
    (∀ w f, eventOf s.fault p = .cmd w → decode (.cmd w) = .ok (.cfg f) → t.cur = s.cur) ∧
    (∀ w, eventOf s.fault p = .cmd w → cmdLegal w = false → t.cur = s.cur) ∧
    (eventOf s.fault p = .pull → s.loaded = true →
      outValid t = true ∧ t.cur.toNat = (s.cur.toNat + 1) % streamLen Config.hw s.nib) ∧
    (eventOf s.fault p = .pull → s.loaded = false → t.cur = s.cur) ∧
    (eventOf s.fault p = .idle → t.cur = s.cur)) ∧
  (∀ s t, step s = .next t → (∀ p, s.inputs.head? ≠ some (.pins p)) → t.cur = s.cur) ∧
  (∀ s, s.fault = true → ∀ i, ∃ t, exec i s = .next t ∧ t.cur = s.cur) ∧
  ∀ n, 0 < streamLen Config.hw n ∧ streamLen Config.hw n < 2 ^ 23

/-- R188, R214, R215 (decision D14): a faulted machine is quiescent: over any number of cycles
without `rst` it delivers nothing and keeps all six items and so its status. -/
def Obligations.FaultedRunQuiescent : Prop :=
  ∀ k s, s.fault = true → (∀ c ∈ s.inputs, NoReset c) →
    ∃ t, runFor k s = some ([], t) ∧ t.nib = s.nib ∧ t.cur = s.cur ∧ t.fmt = s.fmt ∧
      t.loaded = s.loaded ∧ t.fault = true ∧ t.cause = s.cause ∧ status t = status s

/-- R23, U7, log 4: what NIB holds while nothing is loaded can not be observed: two states that
differ in nothing else deliver the same values and show the same status, for every value of the
free content and over any number of steps. -/
def Obligations.UnwrittenNibblesUnobservable : Prop :=
  ∀ k s t, s.loaded = false → SameButNib s t →
    (runFor k s = none ∧ runFor k t = none) ∨
      ∃ vs u v, runFor k s = some (vs, u) ∧ runFor k t = some (vs, v) ∧ SameButNib u v ∧
        status u = status v

/-- R65, R219, R240: a Reset erases the past: from any two states, the same inputs that begin with a
Reset cycle deliver the same values and end in the same status. -/
def Obligations.ResetErasesHistory : Prop :=
  ∀ k s t p rest, p.rst = true → s.inputs = .pins p :: rest → t.inputs = .pins p :: rest →
    (runFor (k + 1) s = none ∧ runFor (k + 1) t = none) ∨
      ∃ vs u v, runFor (k + 1) s = some (vs, u) ∧ runFor (k + 1) t = some (vs, v) ∧
        status u = status v

/-! ## Replay -/

/-- R196: FILL n, for every n: the values of the sample space from the cursor on, modulo its length,
each with its phase, and the cursor n further. -/
def Obligations.FillDelivers : Prop :=
  ∀ k s rest, s.fault = false → s.loaded = true → s.cur.toNat < streamLen Config.hw s.nib →
    s.inputs = List.replicate k pullCycle ++ rest →
    ∃ t, runFor k s = some
        ((List.range k).map fun j =>
          (sample Config.hw s.fmt s.nib ((s.cur.toNat + j) % streamLen Config.hw s.nib),
            phaseOf ((s.cur.toNat + j) % streamLen Config.hw s.nib)), t) ∧
      t.cur.toNat = (s.cur.toNat + k) % streamLen Config.hw s.nib ∧ t.inputs = rest ∧
      t.nib = s.nib ∧ t.fmt = s.fmt ∧ t.loaded = true ∧ t.fault = false ∧ t.cause = s.cause

/-- R196, R187, R188: a FILL with nothing loaded delivers nothing; it faults if it pulls at all. -/
def Obligations.FillEmptyFaults : Prop :=
  ∀ k s rest, s.fault = false → s.loaded = false →
    s.inputs = List.replicate k pullCycle ++ rest →
    ∃ t, runFor k s = some ([], t) ∧ t.nib = s.nib ∧ t.cur = s.cur ∧ t.fmt = s.fmt ∧
      t.loaded = false ∧ (k = 0 → t = s) ∧ (1 ≤ k → t.fault = true ∧ t.cause = some .emptyPull)

/-- R198: from a cursor of 0, k times the buffer's length in pulls delivers the SampleBuffer k times
and leaves the cursor at 0. -/
def Obligations.CircularReplay : Prop :=
  ∀ k s, s.fault = false → s.loaded = true → s.cur = 0 →
    s.inputs = List.replicate (k * streamLen Config.hw s.nib) pullCycle →
    ∃ vs t, runFor (k * streamLen Config.hw s.nib) s = some (vs, t) ∧ t.cur = 0 ∧
      vs.map (fun x => x.1)
        = (List.replicate k (sampleBuffer Config.hw s.fmt s.nib)).flatten

/-- R198, R132: the stream also has the period of one repetition. -/
def Obligations.StreamPeriodOneRepetition : Prop :=
  ∀ f n k, streamLen Config.hw n = 12 * (2000 * repLen Config.hw n) ∧
    (k + 2000 * repLen Config.hw n < streamLen Config.hw n →
      sample Config.hw f n (k + 2000 * repLen Config.hw n) = sample Config.hw f n k)

/-- R62, R112, R242, R245: a load at any time, by an LDN or an LDR word and whatever the strobe beside
it, is seen by the very next PULL: any number of pulls after it deliver the new Frame from index 0 on,
no value of an earlier one, and the first is the high I level of the format. -/
def Obligations.LoadSeenByNextPull : Prop :=
  ∀ k s w pull n rest, s.fault = false →
    (decode (.cmd w) = .ok (.ldn n) ∨ ∃ id ch tt h,
      decode (.cmd w) = .ok (.ldr id ch tt h) ∧ n = pack Config.hw id ch tt h) →
    s.inputs = .pins ⟨false, true, w, pull⟩ :: (List.replicate k pullCycle ++ rest) →
    ∃ t, runFor (k + 1) s = some
        ((List.range k).map fun j =>
          (sample Config.hw s.fmt n (j % streamLen Config.hw n),
            phaseOf (j % streamLen Config.hw n)), t) ∧
      t.nib = n ∧ t.cur.toNat = k % streamLen Config.hw n ∧ t.fmt = s.fmt ∧ t.inputs = rest ∧
      sample Config.hw s.fmt n 0 = levelValue Config.hw (levelI s.fmt true)

/-- R59, R194: idle cycles (no `rst`, no command, no strobe, whatever the `cmd` pins hold) between other
inputs have no effect on what is delivered, nor on the end of the run. -/
def Obligations.IdleCyclesInvisible : Prop :=
  ∀ s cs, (∀ c ∈ cs, IsPins c) → s.inputs = cs →
    ∃ vs t u, runFor cs.length s = some (vs, t) ∧
      runFor (cs.filter (!isIdleCycle ·)).length { s with inputs := cs.filter (!isIdleCycle ·) }
        = some (vs, u) ∧
      u.nib = t.nib ∧ u.cur = t.cur ∧ u.fmt = t.fmt ∧ status u = status t

/-- R199: the five counters are the cursor: they stand for its index, they step as it does, they
deliver the same value, and they are all 0 at index 0. -/
def Obligations.CountersRefineCursor : Prop :=
  ∀ (f : Fmt) (n : NibbleFrame), ∀ k < streamLen Config.hw n,
    counterIndex Config.hw n (locate Config.hw n k) = k ∧
    counterNext Config.hw n (locate Config.hw n k)
      = locate Config.hw n ((k + 1) % streamLen Config.hw n) ∧
    counterValue Config.hw f (locate Config.hw n k) = sample Config.hw f n k ∧
    (locate Config.hw n k = Counters.zero ↔ k = 0)
end

