-- ==== Sys2Proof/Laws/State.lean ====
section
/-! SUPPORT. The small lemmas of the state: one per field per update, true by rfl, and the fields of
the state after reset. -/

namespace Sys2Proof.Machine

/-! ### withNib -/

section
variable (s : State) (x : NibbleFrame)

@[simp] theorem State.withNib_nib : (s.withNib x).nib = x := rfl
@[simp] theorem State.withNib_cur : (s.withNib x).cur = s.cur := rfl
@[simp] theorem State.withNib_fmt : (s.withNib x).fmt = s.fmt := rfl
@[simp] theorem State.withNib_loaded : (s.withNib x).loaded = s.loaded := rfl
@[simp] theorem State.withNib_fault : (s.withNib x).fault = s.fault := rfl
@[simp] theorem State.withNib_cause : (s.withNib x).cause = s.cause := rfl
@[simp] theorem State.withNib_inputs : (s.withNib x).inputs = s.inputs := rfl
@[simp] theorem State.withNib_out : (s.withNib x).out = s.out := rfl
@[simp] theorem State.withNib_draws : (s.withNib x).draws = s.draws := rfl

end

/-! ### withCur -/

section
variable (s : State) (x : Cursor)

@[simp] theorem State.withCur_nib : (s.withCur x).nib = s.nib := rfl
@[simp] theorem State.withCur_cur : (s.withCur x).cur = x := rfl
@[simp] theorem State.withCur_fmt : (s.withCur x).fmt = s.fmt := rfl
@[simp] theorem State.withCur_loaded : (s.withCur x).loaded = s.loaded := rfl
@[simp] theorem State.withCur_fault : (s.withCur x).fault = s.fault := rfl
@[simp] theorem State.withCur_cause : (s.withCur x).cause = s.cause := rfl
@[simp] theorem State.withCur_inputs : (s.withCur x).inputs = s.inputs := rfl
@[simp] theorem State.withCur_out : (s.withCur x).out = s.out := rfl
@[simp] theorem State.withCur_draws : (s.withCur x).draws = s.draws := rfl

end

/-! ### withFmt -/

section
variable (s : State) (x : Fmt)

@[simp] theorem State.withFmt_nib : (s.withFmt x).nib = s.nib := rfl
@[simp] theorem State.withFmt_cur : (s.withFmt x).cur = s.cur := rfl
@[simp] theorem State.withFmt_fmt : (s.withFmt x).fmt = x := rfl
@[simp] theorem State.withFmt_loaded : (s.withFmt x).loaded = s.loaded := rfl
@[simp] theorem State.withFmt_fault : (s.withFmt x).fault = s.fault := rfl
@[simp] theorem State.withFmt_cause : (s.withFmt x).cause = s.cause := rfl
@[simp] theorem State.withFmt_inputs : (s.withFmt x).inputs = s.inputs := rfl
@[simp] theorem State.withFmt_out : (s.withFmt x).out = s.out := rfl
@[simp] theorem State.withFmt_draws : (s.withFmt x).draws = s.draws := rfl

end

/-! ### withLoaded -/

section
variable (s : State) (x : Bool)

@[simp] theorem State.withLoaded_nib : (s.withLoaded x).nib = s.nib := rfl
@[simp] theorem State.withLoaded_cur : (s.withLoaded x).cur = s.cur := rfl
@[simp] theorem State.withLoaded_fmt : (s.withLoaded x).fmt = s.fmt := rfl
@[simp] theorem State.withLoaded_loaded : (s.withLoaded x).loaded = x := rfl
@[simp] theorem State.withLoaded_fault : (s.withLoaded x).fault = s.fault := rfl
@[simp] theorem State.withLoaded_cause : (s.withLoaded x).cause = s.cause := rfl
@[simp] theorem State.withLoaded_inputs : (s.withLoaded x).inputs = s.inputs := rfl
@[simp] theorem State.withLoaded_out : (s.withLoaded x).out = s.out := rfl
@[simp] theorem State.withLoaded_draws : (s.withLoaded x).draws = s.draws := rfl

end

/-! ### withFault -/

section
variable (s : State) (x : Bool)

@[simp] theorem State.withFault_nib : (s.withFault x).nib = s.nib := rfl
@[simp] theorem State.withFault_cur : (s.withFault x).cur = s.cur := rfl
@[simp] theorem State.withFault_fmt : (s.withFault x).fmt = s.fmt := rfl
@[simp] theorem State.withFault_loaded : (s.withFault x).loaded = s.loaded := rfl
@[simp] theorem State.withFault_fault : (s.withFault x).fault = x := rfl
@[simp] theorem State.withFault_cause : (s.withFault x).cause = s.cause := rfl
@[simp] theorem State.withFault_inputs : (s.withFault x).inputs = s.inputs := rfl
@[simp] theorem State.withFault_out : (s.withFault x).out = s.out := rfl
@[simp] theorem State.withFault_draws : (s.withFault x).draws = s.draws := rfl

end

/-! ### withCause -/

section
variable (s : State) (x : Option Cause)

@[simp] theorem State.withCause_nib : (s.withCause x).nib = s.nib := rfl
@[simp] theorem State.withCause_cur : (s.withCause x).cur = s.cur := rfl
@[simp] theorem State.withCause_fmt : (s.withCause x).fmt = s.fmt := rfl
@[simp] theorem State.withCause_loaded : (s.withCause x).loaded = s.loaded := rfl
@[simp] theorem State.withCause_fault : (s.withCause x).fault = s.fault := rfl
@[simp] theorem State.withCause_cause : (s.withCause x).cause = x := rfl
@[simp] theorem State.withCause_inputs : (s.withCause x).inputs = s.inputs := rfl
@[simp] theorem State.withCause_out : (s.withCause x).out = s.out := rfl
@[simp] theorem State.withCause_draws : (s.withCause x).draws = s.draws := rfl

end

/-! ### withInputs -/

section
variable (s : State) (x : List Cycle)

@[simp] theorem State.withInputs_nib : (s.withInputs x).nib = s.nib := rfl
@[simp] theorem State.withInputs_cur : (s.withInputs x).cur = s.cur := rfl
@[simp] theorem State.withInputs_fmt : (s.withInputs x).fmt = s.fmt := rfl
@[simp] theorem State.withInputs_loaded : (s.withInputs x).loaded = s.loaded := rfl
@[simp] theorem State.withInputs_fault : (s.withInputs x).fault = s.fault := rfl
@[simp] theorem State.withInputs_cause : (s.withInputs x).cause = s.cause := rfl
@[simp] theorem State.withInputs_inputs : (s.withInputs x).inputs = x := rfl
@[simp] theorem State.withInputs_out : (s.withInputs x).out = s.out := rfl
@[simp] theorem State.withInputs_draws : (s.withInputs x).draws = s.draws := rfl

end

/-! ### withOut -/

section
variable (s : State) (x : Out)

@[simp] theorem State.withOut_nib : (s.withOut x).nib = s.nib := rfl
@[simp] theorem State.withOut_cur : (s.withOut x).cur = s.cur := rfl
@[simp] theorem State.withOut_fmt : (s.withOut x).fmt = s.fmt := rfl
@[simp] theorem State.withOut_loaded : (s.withOut x).loaded = s.loaded := rfl
@[simp] theorem State.withOut_fault : (s.withOut x).fault = s.fault := rfl
@[simp] theorem State.withOut_cause : (s.withOut x).cause = s.cause := rfl
@[simp] theorem State.withOut_inputs : (s.withOut x).inputs = s.inputs := rfl
@[simp] theorem State.withOut_out : (s.withOut x).out = x := rfl
@[simp] theorem State.withOut_draws : (s.withOut x).draws = s.draws := rfl

end

/-! ### withDraws -/

section
variable (s : State) (x : Nat)

@[simp] theorem State.withDraws_nib : (s.withDraws x).nib = s.nib := rfl
@[simp] theorem State.withDraws_cur : (s.withDraws x).cur = s.cur := rfl
@[simp] theorem State.withDraws_fmt : (s.withDraws x).fmt = s.fmt := rfl
@[simp] theorem State.withDraws_loaded : (s.withDraws x).loaded = s.loaded := rfl
@[simp] theorem State.withDraws_fault : (s.withDraws x).fault = s.fault := rfl
@[simp] theorem State.withDraws_cause : (s.withDraws x).cause = s.cause := rfl
@[simp] theorem State.withDraws_inputs : (s.withDraws x).inputs = s.inputs := rfl
@[simp] theorem State.withDraws_out : (s.withDraws x).out = s.out := rfl
@[simp] theorem State.withDraws_draws : (s.withDraws x).draws = x := rfl

end

/-! ### reset -/

@[simp] theorem State.reset_nib : State.reset.nib = Config.unwrittenNibbles 0 := rfl
@[simp] theorem State.reset_cur : State.reset.cur = 0 := rfl
@[simp] theorem State.reset_fmt : State.reset.fmt = .s8 := rfl
@[simp] theorem State.reset_loaded : State.reset.loaded = false := rfl
@[simp] theorem State.reset_fault : State.reset.fault = false := rfl
@[simp] theorem State.reset_cause : State.reset.cause = none := rfl
@[simp] theorem State.reset_inputs : State.reset.inputs = [] := rfl
@[simp] theorem State.reset_out : State.reset.out = .quiet := rfl
@[simp] theorem State.reset_draws : State.reset.draws = 0 := rfl

/-- Two states with equal fields are equal. -/
theorem State.ext_fields {s t : State} (h1 : s.nib = t.nib) (h2 : s.cur = t.cur) (h3 : s.fmt = t.fmt)
    (h4 : s.loaded = t.loaded) (h5 : s.fault = t.fault) (h6 : s.cause = t.cause)
    (h7 : s.inputs = t.inputs) (h8 : s.out = t.out) (h9 : s.draws = t.draws) : s = t := by
  cases s; cases t; simp_all

end Sys2Proof.Machine
end

