-- ==== Sys2Proof/Laws/Ops.lean ====
section
/-! SUPPORT. What each named operation does to each field (true by rfl), and the one lemma about
`whenLive` that every meaning goes through. -/

namespace Sys2Proof.Machine

/-! ### idle -/

section
variable (s : State)

@[simp] theorem idle_nib : (idle s).nib = s.nib := rfl
@[simp] theorem idle_cur : (idle s).cur = s.cur := rfl
@[simp] theorem idle_fmt : (idle s).fmt = s.fmt := rfl
@[simp] theorem idle_loaded : (idle s).loaded = s.loaded := rfl
@[simp] theorem idle_fault : (idle s).fault = s.fault := rfl
@[simp] theorem idle_cause : (idle s).cause = s.cause := rfl
@[simp] theorem idle_inputs : (idle s).inputs = s.inputs := rfl
@[simp] theorem idle_out : (idle s).out = .quiet := rfl
@[simp] theorem idle_draws : (idle s).draws = s.draws := rfl

end

/-! ### raise -/

section
variable (c : Cause) (s : State)

@[simp] theorem raise_nib : (raise c s).nib = s.nib := rfl
@[simp] theorem raise_cur : (raise c s).cur = s.cur := rfl
@[simp] theorem raise_fmt : (raise c s).fmt = s.fmt := rfl
@[simp] theorem raise_loaded : (raise c s).loaded = s.loaded := rfl
@[simp] theorem raise_fault : (raise c s).fault = true := rfl
@[simp] theorem raise_cause : (raise c s).cause = some c := rfl
@[simp] theorem raise_inputs : (raise c s).inputs = s.inputs := rfl
@[simp] theorem raise_out : (raise c s).out = .quiet := rfl
@[simp] theorem raise_draws : (raise c s).draws = s.draws := rfl

end

/-! ### resetEvent -/

section
variable (s : State)

@[simp] theorem resetEvent_nib : (resetEvent s).nib = Config.unwrittenNibbles (s.draws + 1) := rfl
@[simp] theorem resetEvent_cur : (resetEvent s).cur = 0 := rfl
@[simp] theorem resetEvent_fmt : (resetEvent s).fmt = .s8 := rfl
@[simp] theorem resetEvent_loaded : (resetEvent s).loaded = false := rfl
@[simp] theorem resetEvent_fault : (resetEvent s).fault = false := rfl
@[simp] theorem resetEvent_cause : (resetEvent s).cause = none := rfl
@[simp] theorem resetEvent_inputs : (resetEvent s).inputs = s.inputs := rfl
@[simp] theorem resetEvent_out : (resetEvent s).out = .quiet := rfl
@[simp] theorem resetEvent_draws : (resetEvent s).draws = s.draws + 1 := rfl

end

/-! ### loadFrame -/

section
variable (n : NibbleFrame) (s : State)

@[simp] theorem loadFrame_nib : (loadFrame n s).nib = n := rfl
@[simp] theorem loadFrame_cur : (loadFrame n s).cur = 0 := rfl
@[simp] theorem loadFrame_fmt : (loadFrame n s).fmt = s.fmt := rfl
@[simp] theorem loadFrame_loaded : (loadFrame n s).loaded = true := rfl
@[simp] theorem loadFrame_fault : (loadFrame n s).fault = s.fault := rfl
@[simp] theorem loadFrame_cause : (loadFrame n s).cause = s.cause := rfl
@[simp] theorem loadFrame_inputs : (loadFrame n s).inputs = s.inputs := rfl
@[simp] theorem loadFrame_out : (loadFrame n s).out = .quiet := rfl
@[simp] theorem loadFrame_draws : (loadFrame n s).draws = s.draws := rfl

end

/-! ### restart -/

section
variable (s : State)

@[simp] theorem restart_nib : (restart s).nib = s.nib := rfl
@[simp] theorem restart_cur : (restart s).cur = 0 := rfl
@[simp] theorem restart_fmt : (restart s).fmt = s.fmt := rfl
@[simp] theorem restart_loaded : (restart s).loaded = s.loaded := rfl
@[simp] theorem restart_fault : (restart s).fault = s.fault := rfl
@[simp] theorem restart_cause : (restart s).cause = s.cause := rfl
@[simp] theorem restart_inputs : (restart s).inputs = s.inputs := rfl
@[simp] theorem restart_out : (restart s).out = .quiet := rfl
@[simp] theorem restart_draws : (restart s).draws = s.draws := rfl

end

/-! ### setFormat -/

section
variable (f : Fmt) (s : State)

@[simp] theorem setFormat_nib : (setFormat f s).nib = s.nib := rfl
@[simp] theorem setFormat_cur : (setFormat f s).cur = s.cur := rfl
@[simp] theorem setFormat_fmt : (setFormat f s).fmt = f := rfl
@[simp] theorem setFormat_loaded : (setFormat f s).loaded = s.loaded := rfl
@[simp] theorem setFormat_fault : (setFormat f s).fault = s.fault := rfl
@[simp] theorem setFormat_cause : (setFormat f s).cause = s.cause := rfl
@[simp] theorem setFormat_inputs : (setFormat f s).inputs = s.inputs := rfl
@[simp] theorem setFormat_out : (setFormat f s).out = .quiet := rfl
@[simp] theorem setFormat_draws : (setFormat f s).draws = s.draws := rfl

end

/-! ### deliver -/

section
variable (v : Value) (ph : Phase) (k : Cursor) (s : State)

@[simp] theorem deliver_nib : (deliver v ph k s).nib = s.nib := rfl
@[simp] theorem deliver_cur : (deliver v ph k s).cur = k := rfl
@[simp] theorem deliver_fmt : (deliver v ph k s).fmt = s.fmt := rfl
@[simp] theorem deliver_loaded : (deliver v ph k s).loaded = s.loaded := rfl
@[simp] theorem deliver_fault : (deliver v ph k s).fault = s.fault := rfl
@[simp] theorem deliver_cause : (deliver v ph k s).cause = s.cause := rfl
@[simp] theorem deliver_inputs : (deliver v ph k s).inputs = s.inputs := rfl
@[simp] theorem deliver_out : (deliver v ph k s).out = .value v ph := rfl
@[simp] theorem deliver_draws : (deliver v ph k s).draws = s.draws := rfl

end

/-! ### emitTrain -/

section
variable (l : List Bool) (s : State)

@[simp] theorem emitTrain_nib : (emitTrain l s).nib = s.nib := rfl
@[simp] theorem emitTrain_cur : (emitTrain l s).cur = s.cur := rfl
@[simp] theorem emitTrain_fmt : (emitTrain l s).fmt = s.fmt := rfl
@[simp] theorem emitTrain_loaded : (emitTrain l s).loaded = s.loaded := rfl
@[simp] theorem emitTrain_fault : (emitTrain l s).fault = s.fault := rfl
@[simp] theorem emitTrain_cause : (emitTrain l s).cause = s.cause := rfl
@[simp] theorem emitTrain_inputs : (emitTrain l s).inputs = s.inputs := rfl
@[simp] theorem emitTrain_out : (emitTrain l s).out = .train l := rfl
@[simp] theorem emitTrain_draws : (emitTrain l s).draws = s.draws := rfl

end

/-! ### emitLevel -/

section
variable (v : Value) (ph : Phase) (s : State)

@[simp] theorem emitLevel_nib : (emitLevel v ph s).nib = s.nib := rfl
@[simp] theorem emitLevel_cur : (emitLevel v ph s).cur = s.cur := rfl
@[simp] theorem emitLevel_fmt : (emitLevel v ph s).fmt = s.fmt := rfl
@[simp] theorem emitLevel_loaded : (emitLevel v ph s).loaded = s.loaded := rfl
@[simp] theorem emitLevel_fault : (emitLevel v ph s).fault = s.fault := rfl
@[simp] theorem emitLevel_cause : (emitLevel v ph s).cause = s.cause := rfl
@[simp] theorem emitLevel_inputs : (emitLevel v ph s).inputs = s.inputs := rfl
@[simp] theorem emitLevel_out : (emitLevel v ph s).out = .level v ph := rfl
@[simp] theorem emitLevel_draws : (emitLevel v ph s).draws = s.draws := rfl

end

/-! ### whenLive -/

/-- In a faulted state nothing but an Idle happens. -/
theorem whenLive_fault {effect : State → State} {s : State} (h : s.fault = true) :
    whenLive effect s = .next (idle s) := by simp [whenLive, h]

/-- In a state without a fault the effect happens. -/
theorem whenLive_live {effect : State → State} {s : State} (h : s.fault = false) :
    whenLive effect s = .next (effect s) := by simp [whenLive, h]

/-- All that `whenLive` can answer. -/
theorem whenLive_cases {effect : State → State} {s t : State} (h : whenLive effect s = .next t) :
    (s.fault = true ∧ t = idle s) ∨ (s.fault = false ∧ t = effect s) := by
  cases hf : s.fault <;> simp [whenLive, hf] at h <;> simp [h]

/-- `whenLive` never stops. -/
theorem whenLive_next (effect : State → State) (s : State) :
    ∃ t, whenLive effect s = .next t := ⟨_, rfl⟩

end Sys2Proof.Machine
end

