-- ==== Sys2Proof/Laws/PerInstr.lean ====
section
/-! SUPPORT. Per-instruction families about the instruction as syntax. `EncodedLegal`: the code word
of every instruction is well formed by the prose of R88, R90 and R92, which is written
independently of the encoder. -/

namespace Sys2Proof.Laws.EncodedLegal

/-- The instruction is well formed and so is its code word. -/
def Statement (i : Instr) : Prop :=
  i.wellFormed = true ∧ (encode i).wellFormed = true

theorem ldn (n : NibbleFrame) : Statement (.ldn n) := by
  have h : (encodeLdn n).extractLsb' 36 4 = 1#4 :=
    BitVec.extractLsb'_append_eq_left (a := 1#4) (b := n.payload)
  refine ⟨rfl, ?_⟩
  simp only [encode, Code.wellFormed, cmdLegal, h]
  rfl

theorem ldr (id : BitVec 8) (channel : BitVec 2) (temp : BitVec 16) (humidity : BitVec 8) :
    Statement (.ldr id channel temp humidity) := by
  have h : (encodeLdr id channel temp humidity).extractLsb' 36 4 = 2#4 := by
    iterate 4 refine (BitVec.extractLsb'_append_eq_of_le (by decide)).trans ?_
    exact BitVec.extractLsb'_append_eq_left
  have r : (encodeLdr id channel temp humidity).extractLsb' 0 2 = 0#2 :=
    BitVec.extractLsb'_append_eq_right
  refine ⟨rfl, ?_⟩
  simp only [encode, Code.wellFormed, cmdLegal, h, r]
  rfl

theorem cfg (fmt : Fmt) : Statement (.cfg fmt) := by cases fmt <;> exact ⟨rfl, by decide⟩
theorem start : Statement .start := ⟨rfl, by decide⟩
theorem pull : Statement .pull := ⟨rfl, rfl⟩
theorem sync : Statement .sync := ⟨rfl, by decide⟩
theorem bit0 : Statement .bit0 := ⟨rfl, by decide⟩
theorem bit1 : Statement .bit1 := ⟨rfl, by decide⟩
theorem s8High : Statement .s8High := ⟨rfl, by decide⟩
theorem s8Low : Statement .s8Low := ⟨rfl, by decide⟩
theorem s8Q : Statement .s8Q := ⟨rfl, by decide⟩
theorem u8High : Statement .u8High := ⟨rfl, by decide⟩
theorem u8Low : Statement .u8Low := ⟨rfl, by decide⟩
theorem u8Q : Statement .u8Q := ⟨rfl, by decide⟩

end Sys2Proof.Laws.EncodedLegal
end

