-- ==== Sys2Proof/Laws/Pipeline.lean ====
section
/-! SUPPORT. The basic facts of the data path: how many bits, elements and slots there are, and the
bounds on the lengths that keep the cursor's modulus positive and inside 23 bits (R26, R31). -/

namespace Sys2Proof.Machine

/-! ## The configuration -/

@[simp] theorem hw_nbits : Config.hw.nbits = 36 := rfl
@[simp] theorem hw_reps : Config.hw.reps = 12 := rfl
@[simp] theorem hw_syncw : Config.hw.syncw = 9 := rfl
@[simp] theorem hw_w0 : Config.hw.w0 = 3 := rfl
@[simp] theorem hw_w1 : Config.hw.w1 = 5 := rfl
@[simp] theorem hw_osr : Config.hw.osr = 1000 := rfl
@[simp] theorem variant_nbits (o r : Nat) : (Config.variant o r).nbits = 36 := rfl
@[simp] theorem variant_reps (o r : Nat) : (Config.variant o r).reps = r := rfl
@[simp] theorem variant_syncw (o r : Nat) : (Config.variant o r).syncw = 9 := rfl
@[simp] theorem variant_w0 (o r : Nat) : (Config.variant o r).w0 = 3 := rfl
@[simp] theorem variant_w1 (o r : Nat) : (Config.variant o r).w1 = 5 := rfl
@[simp] theorem variant_osr (o r : Nat) : (Config.variant o r).osr = o := rfl

/-- This hardware is the instance OSR = 1000, REPS = 12 (R8). -/
theorem variant_hw : Config.variant 1000 12 = Config.hw := rfl

/-- The oversampling ratio is the quotient of the two rates (R6). -/
theorem hw_osr_rates : Config.hw.osr = Config.hw.sampleRate / Config.hw.slotRate := rfl

/-! ## Bits and elements -/

@[simp] theorem nibbleList_length (n : NibbleFrame) : (nibbleList n).length = 9 := rfl

@[simp] theorem dataBits_length (n : NibbleFrame) : (dataBits n).length = 36 := rfl

@[simp] theorem repetition_length (n : NibbleFrame) : (repetition n).length = 37 := rfl

@[simp] theorem repWidths_length (c : Params) (n : NibbleFrame) : (repWidths c n).length = 37 := by
  simp [repWidths]

theorem weight_le (n : NibbleFrame) : weight n ≤ 36 := by
  have h := (dataBits n).count_le_length (a := true)
  rwa [dataBits_length] at h

theorem elemSeq_length (c : Params) (n : NibbleFrame) :
    (elemSeq c n).length = c.reps * 37 := by
  simp [elemSeq]

/-- The widths of a list of data elements, by how many bits are 1. -/
theorem bitWidths_sum (c : Params) (bs : List Bool) :
    ((bs.map bitElement).map (elemWidth c)).sum
      = c.w0 * (bs.length - bs.count true) + c.w1 * bs.count true := by
  induction bs with
  | nil => simp
  | cons b bs ih =>
    have hle := bs.count_le_length (a := true)
    rw [List.map_cons, List.map_cons, List.sum_cons, ih]
    cases b
    · have : bs.length + 1 - bs.count true = (bs.length - bs.count true) + 1 := by omega
      simp [bitElement, elemWidth, this, Nat.mul_add]; omega
    · simp [bitElement, elemWidth, Nat.mul_add]; omega

/-- The element widths of a repetition add up to `RL` (R31, R153). -/
theorem repWidths_sum {c : Params} (h : c.nbits = 36) (n : NibbleFrame) :
    (repWidths c n).sum = repLen c n := by
  have := bitWidths_sum c (dataBits n)
  simp only [repWidths, repetition, List.map_cons, List.sum_cons, this, dataBits_length, repLen,
    weight, h, elemWidth]
  omega

/-! ## Slots -/

theorem expand_length {c : Params} {el : Element} (h : 0 < elemWidth c el) :
    (expand c el).length = elemWidth c el := by
  simp [expand]; omega

/-- The slots of one repetition. -/
def repSlots (c : Params) (n : NibbleFrame) : List Bool := (repetition n).flatMap (expand c)

/-- The Frame is `REPS` copies of the slots of one repetition (R155). -/
theorem frame_eq_copies (c : Params) (n : NibbleFrame) :
    frame c n = (List.replicate c.reps (repSlots c n)).flatten := by
  unfold frame elemSeq repSlots
  induction c.reps with
  | zero => simp
  | succ r ih => simp [List.replicate_succ, ih]

/-! ## Lengths -/

theorem hw_repLen (n : NibbleFrame) : repLen Config.hw n = 117 + 2 * weight n := by
  have := weight_le n
  simp [repLen]; omega

theorem hw_streamLen (n : NibbleFrame) :
    streamLen Config.hw n = 2808000 + 48000 * weight n := by
  simp [streamLen, pairLen, frameLen, hw_repLen]; omega

theorem streamLen_pos (n : NibbleFrame) : 0 < streamLen Config.hw n := by
  rw [hw_streamLen]; omega

theorem streamLen_lt (n : NibbleFrame) : streamLen Config.hw n < 2 ^ 23 := by
  have := weight_le n
  rw [hw_streamLen]; omega

/-- The cursor after a PULL, as a number (R186). -/
theorem advance_toNat (n : NibbleFrame) (k : Cursor) :
    (advance Config.hw n k).toNat = (k.toNat + 1) % streamLen Config.hw n := by
  have h := Nat.mod_lt (k.toNat + 1) (streamLen_pos n)
  have := streamLen_lt n
  simp only [advance, BitVec.toNat_ofNat]
  exact Nat.mod_eq_of_lt (by omega)

/-- A PULL leaves the cursor inside the sample space (R27). -/
theorem advance_lt (n : NibbleFrame) (k : Cursor) :
    (advance Config.hw n k).toNat < streamLen Config.hw n := by
  rw [advance_toNat]; exact Nat.mod_lt _ (streamLen_pos n)

/-! ## R156's walk and R199's search -/

/-- The walk finds the element that `findElem` finds, and answers whether it is at its first slot. -/
theorem walkSlot_eq_findElem {ws : List Nat} {q : Nat} (h : q < ws.sum) :
    walkSlot ws q = ((findElem ws q).2 == 0) := by
  induction ws generalizing q with
  | nil => simp at h
  | cons w ws ih =>
    simp only [walkSlot, findElem]
    split
    · rfl
    · exact ih (by simp at h; omega)

/-- What the search finds: an element of the list, a position inside it, and together the position
searched for. -/
theorem findElem_spec {ws : List Nat} {q : Nat} (h : q < ws.sum) :
    (findElem ws q).1 < ws.length ∧
      (findElem ws q).2 < ws.getD (findElem ws q).1 0 ∧
      (ws.take (findElem ws q).1).sum + (findElem ws q).2 = q := by
  induction ws generalizing q with
  | nil => simp at h
  | cons w ws ih =>
    by_cases hq : q < w
    · simp [findElem, hq]
    · have := ih (q := q - w) (by simp at h; omega)
      simp [findElem, hq]
      simp at this
      omega

end Sys2Proof.Machine
end

