-- ==== Sys2Proof/Laws/Step.lean ====
section
/-! SUPPORT. All that a step can do, said once (`step_cases`); and what exec answers for each
instruction in a live state. -/

namespace Sys2Proof.Machine

/-! ## PULL -/

theorem pullEffect_loaded {s : State} (h : s.loaded = true) : pullEffect s = pullValue Config.hw s := by
  simp [pullEffect, h]

theorem pullEffect_empty {s : State} (h : s.loaded = false) : pullEffect s = raise .emptyPull s := by
  simp [pullEffect, h]

/-! ## What the command decoder can answer -/

/-- A command word decodes to one of the four commands. -/
theorem decodeCmd_ok {w : CmdWord} {i : Instr} (h : decodeCmd w = .ok i) :
    (∃ n, i = .ldn n) ∨ (∃ id ch t hum, i = .ldr id ch t hum) ∨ (∃ f, i = .cfg f) ∨ i = .start := by
  unfold decodeCmd at h
  split at h
  · cases h; exact .inl ⟨_, rfl⟩
  split at h
  · cases h; exact .inr (.inl ⟨_, _, _, _, rfl⟩)
  split at h
  · cases h; exact .inr (.inr (.inl ⟨_, rfl⟩))
  split at h
  · cases h; exact .inr (.inr (.inr rfl))
  · cases h

/-- Slots that decode are an element. -/
theorem decodeElement_ok {slots : List Bool} {i : Instr} (h : decodeElement slots = .ok i) :
    i = .sync ∨ i = .bit0 ∨ i = .bit1 := by
  unfold decodeElement at h
  split at h
  · split at h
    · split at h <;> cases h <;> simp
    · cases h
  · cases h

/-- A byte that decodes is a level. -/
theorem decodeLevel_ok {f : Fmt} {ph : Phase} {v : Value} {i : Instr}
    (h : decodeLevel f ph v = .ok i) :
    i = .s8High ∨ i = .s8Low ∨ i = .s8Q ∨ i = .u8High ∨ i = .u8Low ∨ i = .u8Q := by
  unfold decodeLevel at h
  repeat' split at h
  all_goals first | (cases h; done) | (cases h; simp)

/-! ## The step -/

/-- The state whose inputs have moved on. -/
def rest (s : State) : State := s.withInputs s.inputs.tail

/-- The cycle at the head of the inputs is a live command cycle. -/
def CmdCycleAt (s : State) (p : Pins) : Prop :=
  s.inputs.head? = some (.pins p) ∧ p.rst = false ∧ s.fault = false ∧ p.cmdValid = true

/-- The cycle at the head of the inputs is a live Pull. -/
def PullCycleAt (s : State) (p : Pins) : Prop :=
  s.inputs.head? = some (.pins p) ∧ p.rst = false ∧ s.fault = false ∧ p.cmdValid = false ∧
    p.pull = true

/-- Where a step can lead. -/
inductive StepTo (s : State) : State → Prop
  | idle : StepTo s (idle (rest s))
  | reset (p : Pins) (hh : s.inputs.head? = some (.pins p)) (hr : p.rst = true) :
      StepTo s (resetEvent (rest s))
  | ldn (p : Pins) (n : NibbleFrame) (hc : CmdCycleAt s p) (hd : decodeCmd p.cmd = .ok (.ldn n)) :
      StepTo s (loadFrame n (rest s))
  | ldr (p : Pins) (id : BitVec 8) (ch : BitVec 2) (tt : BitVec 16) (hum : BitVec 8)
      (hc : CmdCycleAt s p) (hd : decodeCmd p.cmd = .ok (.ldr id ch tt hum)) :
      StepTo s (loadFrame (pack Config.hw id ch tt hum) (rest s))
  | cfg (p : Pins) (f : Fmt) (hc : CmdCycleAt s p) (hd : decodeCmd p.cmd = .ok (.cfg f)) :
      StepTo s (setFormat f (rest s))
  | start (p : Pins) (hc : CmdCycleAt s p) (hd : decodeCmd p.cmd = .ok .start) :
      StepTo s (restart (rest s))
  | illegal (p : Pins) (e : Reject) (hc : CmdCycleAt s p) (hd : decodeCmd p.cmd = .error e) :
      StepTo s (raise .illegalCmd (rest s))
  | deliver (p : Pins) (hp : PullCycleAt s p) (hl : s.loaded = true) :
      StepTo s (pullValue Config.hw (rest s))
  | empty (p : Pins) (hp : PullCycleAt s p) (hl : s.loaded = false) :
      StepTo s (raise .emptyPull (rest s))
  | train (slots : List Bool) (hh : ∃ l, s.inputs.head? = some (.element l)) (hf : s.fault = false) :
      StepTo s (emitTrain slots (rest s))
  | level (v : Value) (ph : Phase) (hh : ∃ f h b, s.inputs.head? = some (.level f h b))
      (hf : s.fault = false) : StepTo s (emitLevel v ph (rest s))

/-- A cycle of pins leads somewhere. -/
theorem stepTo_pins {s : State} {p : Pins} (hh : s.inputs.head? = some (.pins p)) :
    ∃ t, runEvent (eventOf s.fault p) (rest s) = .next t ∧ StepTo s t := by
  unfold eventOf
  split
  · rename_i hr; exact ⟨_, rfl, .reset p hh hr⟩
  rename_i hr
  have hr : p.rst = false := by simpa using hr
  split
  · exact ⟨_, rfl, .idle⟩
  rename_i hf
  have hf : s.fault = false := by simpa using hf
  have hb : (rest s).fault = false := hf
  split
  · rename_i hv
    have hc : CmdCycleAt s p := ⟨hh, hr, hf, hv⟩
    simp only [runEvent, runCmd]
    cases hd : decodeCmd p.cmd with
    | error e => exact ⟨_, whenLive_live hb, .illegal p e hc hd⟩
    | ok i =>
      obtain ⟨n, rfl⟩ | ⟨id, ch, tt, hum, rfl⟩ | ⟨f, rfl⟩ | rfl := decodeCmd_ok hd
      · exact ⟨_, whenLive_live hb, .ldn p n hc hd⟩
      · exact ⟨_, whenLive_live hb, .ldr p id ch tt hum hc hd⟩
      · exact ⟨_, whenLive_live hb, .cfg p f hc hd⟩
      · exact ⟨_, whenLive_live hb, .start p hc hd⟩
  · rename_i hv
    have hv : p.cmdValid = false := by simpa using hv
    split
    · rename_i hpu
      have hp : PullCycleAt s p := ⟨hh, hr, hf, hv, hpu⟩
      refine ⟨_, whenLive_live hb, ?_⟩
      cases hl : s.loaded
      · rw [pullEffect_empty (by exact hl)]; exact .empty p hp hl
      · rw [pullEffect_loaded (by exact hl)]; exact .deliver p hp hl
    · exact ⟨_, rfl, .idle⟩

/-- ALL THAT A STEP CAN DO: if it answers a next state, that state is one of `StepTo`'s. -/
theorem step_cases {s t : State} (h : step s = .next t) : StepTo s t := by
  unfold step stepInputs at h
  cases hi : s.inputs with
  | nil =>
    rw [hi] at h; cases h
    have e : s = rest s := by cases s; simp_all [rest, State.withInputs]
    have : StepTo s (idle (rest s)) := .idle
    rwa [← e] at this
  | cons c cs =>
    rw [hi] at h
    have hr : s.withInputs cs = rest s := by rw [rest, hi]; rfl
    simp only [hr] at h
    cases c with
    | pins p =>
      obtain ⟨u, hu, ht⟩ := stepTo_pins (s := s) (p := p) (by rw [hi]; rfl)
      have e : runEvent (eventOf s.fault p) (rest s) = .next t := h
      rw [hu] at e; cases e; exact ht
    | element slots =>
      have e : runStage (.element slots) (rest s) = .next t := h
      unfold runStage at e
      split at e
      · cases e; exact .idle
      rename_i hf
      have hf : s.fault = false := Bool.eq_false_iff.2 hf
      have hh : ∃ l, s.inputs.head? = some (.element l) := ⟨slots, by rw [hi]; rfl⟩
      split at e
      · rename_i i hd
        obtain rfl | rfl | rfl := decodeElement_ok hd
        all_goals
          rcases whenLive_cases e with ⟨h1, -⟩ | ⟨-, rfl⟩
          · exact absurd h1 (by simp [hf, rest])
          · exact .train _ hh hf
      · cases e
    | level f ph v =>
      have e : runStage (.level f ph v) (rest s) = .next t := h
      unfold runStage at e
      split at e
      · cases e; exact .idle
      rename_i hf
      have hf : s.fault = false := Bool.eq_false_iff.2 hf
      have hh : ∃ f h b, s.inputs.head? = some (.level f h b) := ⟨f, ph, v, by rw [hi]; rfl⟩
      split at e
      · rename_i i hd
        obtain rfl | rfl | rfl | rfl | rfl | rfl := decodeLevel_ok hd
        all_goals
          rcases whenLive_cases e with ⟨h1, -⟩ | ⟨-, rfl⟩
          · exact absurd h1 (by simp [hf, rest])
          · exact .level _ _ hh hf
      · cases e

end Sys2Proof.Machine
end

