-- ==== Sys2Proof/Tests/Slice0.lean ====
section
/-! SUPPORT. Tests. The expected results are the spec's: its encodings written out bit by bit, and
its vectors V1 to V8 (95_test_vectors.md). The last part shows, for every obligation with
hypotheses, inputs that meet them. -/

namespace Sys2Proof.Tests

open Machine

/-! ## Helpers -/

/-- A field of the next state, if there is one. -/
def after {α : Type} (view : State → α) : Result → Option α
  | .next t => some (view t)
  | _ => none

/-- The nibbles of the source's reading (V1.9). -/
def nSrc : NibbleFrame := ⟨15, 4, 8, 1, 0, 7, 15, 1, 4⟩

/-- The shortest frame (V3.2). -/
def nZero : NibbleFrame := ⟨0, 0, 0, 0, 0, 0, 0, 0, 0⟩

/-- Nothing loaded, no fault, with known nibbles in the place of the unwritten ones. -/
def fresh : State := State.reset.withNib nZero

/-- The state before the vectors of part 5: reset, then `LDN n=F48107F14`. -/
def live : State := (State.reset.withNib nSrc).withLoaded true

/-- The end of V7.1. -/
def faulted : State := (fresh.withFault true).withCause (some .emptyPull)

/-! ## Well-formedness: an ill-formed word for each check -/

theorem test_wf_opcode_zero : cmdLegal 0x0000000000 = false := by decide
theorem test_wf_opcode_five : cmdLegal 0x5000000000 = false := by decide
theorem test_wf_ldr_reserved : cmdLegal 0x2F44041C52 = false := by decide
theorem test_wf_cfg_reserved : cmdLegal 0x3800000000 = false := by decide
theorem test_wf_start_payload : cmdLegal 0x4000000001 = false := by decide
theorem test_wf_ldn_any_payload : cmdLegal 0x1FFFFFFFFF = true := by decide
theorem test_wf_element_too_long : elementLegal [true, false, false, false] = false := by decide
theorem test_wf_element_no_start : elementLegal [false, false, false] = false := by decide
theorem test_wf_level_s8_i : levelLegal .s8 .i 0xFF = false := by decide
theorem test_wf_level_s8_q : levelLegal .s8 .q 0x7F = false := by decide
theorem test_wf_level_u8_i : levelLegal .u8 .i 0x00 = false := by decide
theorem test_wf_level_u8_q : levelLegal .u8 .q 0xFF = false := by decide

/-! ## Decoding: words written out from the encodings of R82 to R85, R90 and R92 -/

/-- Format N: `0001`, then the nine nibbles of F48107F14. -/
theorem test_decode_ldn :
    decode (.cmd 0b0001_1111_0100_1000_0001_0000_0111_1111_0001_0100) = .ok (.ldn nSrc) := by decide

/-- Format R: `0010`, id 11110100, channel 01, temp 0000000100000111, humidity 00010100, `00`. -/
theorem test_decode_ldr :
    decode (.cmd 0b0010_11110100_01_0000000100000111_00010100_00) = .ok (.ldr 244 1 263 20) := by
  decide

/-- Format C: `0011`, 35 zeros, the FMT bit 1. -/
theorem test_decode_cfg_u8 :
    decode (.cmd 0b0011_00000_000000_000000_000000_000000_000000_1) = .ok (.cfg .u8) := by decide

/-- Format C with the FMT bit 0 (V6.5). -/
theorem test_decode_cfg_s8 : decode (.cmd 0x3000000000) = .ok (.cfg .s8) := by decide

/-- Format Z: `0100`, 36 zeros. -/
theorem test_decode_start :
    decode (.cmd 0b0100_000000_000000_000000_000000_000000_000000) = .ok .start := by decide

theorem test_decode_pull : decode .strobe = .ok .pull := by decide

theorem test_decode_sync :
    decode (.element [true, false, false, false, false, false, false, false, false]) = .ok .sync := by
  decide
theorem test_decode_bit0 : decode (.element [true, false, false]) = .ok .bit0 := by decide
theorem test_decode_bit1 : decode (.element [true, false, false, false, false]) = .ok .bit1 := by
  decide
theorem test_decode_two_ones :
    decode (.element [true, true, false]) = .error .notAnElement := by decide

theorem test_decode_s8_high : decode (.level .s8 .i 0b01111111) = .ok .s8High := by decide
theorem test_decode_s8_low : decode (.level .s8 .i 0b00000000) = .ok .s8Low := by decide
theorem test_decode_s8_q : decode (.level .s8 .q 0b00000000) = .ok .s8Q := by decide
theorem test_decode_u8_high : decode (.level .u8 .i 0b11111111) = .ok .u8High := by decide
theorem test_decode_u8_low : decode (.level .u8 .i 0b01111111) = .ok .u8Low := by decide
theorem test_decode_u8_q : decode (.level .u8 .q 0b01111111) = .ok .u8Q := by decide

/-- V6.9, V6.11: illegal words. -/
theorem test_decode_illegal :
    decode (.cmd 0xF000000000) = .error .illegalOpcode ∧
      decode (.cmd 0x3000000002) = .error .reservedBitSet := by decide

/-- The table's words as the host numbers them. -/
theorem test_table_words :
    decodeTableWord 40 0x1F48107F14 = some (.ldn nSrc) ∧
    decodeTableWord 40 0x4000000000 = some .start ∧
    decodeTableWord 8 1 = some .pull ∧
    decodeTableWord 16 0x100 = some .sync ∧
    decodeTableWord 8 4 = some .bit0 ∧
    decodeTableWord 8 16 = some .bit1 ∧
    decodeTableWord 8 0x7F = some .s8High ∧
    decodeTableWord 8 0x00 = some .s8Low ∧
    decodeTableWord 8 0xFF = some .u8High ∧
    decodeTableWord 8 0x55 = none := by decide

/-! ## The field packer (part 2) -/

/-- V2.1. -/
theorem test_pack_source : pack Config.hw 244 1 263 20 = nSrc := by decide
/-- V2.4, a negative temperature (decision D4). -/
theorem test_pack_negative :
    pack Config.hw 18 2 (-5) 55 = ⟨1, 2, 9, 15, 15, 11, 15, 3, 7⟩ := by decide
/-- V2.8, bits above 11 dropped. -/
theorem test_pack_high_bits :
    pack Config.hw 7 2 4101 100 = ⟨0, 7, 9, 0, 0, 5, 15, 6, 4⟩ := by decide
/-- V2.9, channel 0 and humidity 255. -/
theorem test_pack_invalid :
    pack Config.hw 0 0 0 255 = ⟨0, 0, 7, 0, 0, 0, 15, 15, 15⟩ := by decide

/-! ## Encoder, expander, upsampler (parts 3, 4 and 8) -/

/-- V3.1: w, RL, FL, L. -/
theorem test_lengths :
    weight nSrc = 16 ∧ repLen Config.hw nSrc = 149 ∧ frameLen Config.hw nSrc = 1788 ∧
      streamLen Config.hw nSrc = 3576000 := by decide

/-- V3.11. -/
theorem test_slots :
    [0, 8, 9, 13, 14, 28, 29, 31, 32, 148, 149, 158, 1782, 1783, 1785, 1787].map
        (slot Config.hw nSrc)
      = [true, false, true, false, true, false, true, false, true, false, true, true, true, false,
          true, false] := by decide

/-- V3.12. -/
theorem test_elements :
    [0, 1, 4, 5, 6, 7, 36, 37, 38, 443].map (elem Config.hw nSrc)
        = [.sync, .bit1, .bit1, .bit0, .bit1, .bit0, .bit0, .sync, .bit1, .bit0] ∧
      [1, 5, 6, 36, 37, 443].map (elemStart Config.hw nSrc) = [9, 29, 32, 146, 149, 1785] := by
  decide

/-- V4.1, the signed column. -/
theorem test_samples_s8 :
    [0, 1, 1998, 1999, 2000, 17998, 18000, 20000, 28000, 298000, 3575998, 3575999].map
        (sample Config.hw .s8 nSrc)
      = [127, 0, 127, 0, 0, 0, 127, 0, 127, 127, 0, 0] := by decide

/-- V4.1, the unsigned column. -/
theorem test_samples_u8 :
    [0, 1, 1998, 1999, 2000, 17998, 18000, 20000, 28000, 298000, 3575998, 3575999].map
        (sample Config.hw .u8 nSrc)
      = [255, 127, 255, 127, 127, 127, 255, 127, 255, 255, 127, 127] := by decide

/-- Part 8. -/
theorem test_counters :
    [1999, 17999, 297999, 298000, 1000001, 3575999].map (locate Config.hw nSrc)
        = [⟨0, 0, 0, 999, .q⟩, ⟨0, 0, 8, 999, .q⟩, ⟨0, 36, 2, 999, .q⟩, ⟨1, 0, 0, 0, .i⟩,
            ⟨3, 11, 2, 0, .q⟩, ⟨11, 36, 2, 999, .q⟩] ∧
      counterNext Config.hw nSrc ⟨11, 36, 2, 999, .q⟩ = Counters.zero := by decide

/-- V3.13: the zero runs of one repetition of V3.1, cut and read back. -/
theorem test_receive :
    receive (Config.variant 1 1) (frame (Config.variant 1 1) nSrc) = some [nSrc] := by decide

/-! ## One step of each instruction (parts 5 and 7) -/

/-- `LDN`: what it writes, from a state with another cursor. -/
theorem test_ldn :
    after (fun t => (t.nib, t.cur, t.fmt, status t, t.out)) (exec (.ldn nSrc) (fresh.withCur 100))
      = some (nSrc, 0, .s8, 1, .quiet) := by decide

/-- `LDR`, V2.1: "after each row's command": LOADED, CUR, FMT and status. -/
theorem test_ldr :
    after (fun t => (t.nib, t.cur, t.fmt, status t)) (exec (.ldr 244 1 263 20) fresh)
      = some (nSrc, 0, .s8, 1) := by decide

/-- `CFG`, V5.11: CUR is kept. -/
theorem test_cfg :
    after (fun t => (t.fmt, t.cur, status t)) (exec (.cfg .u8) (live.withCur 1))
      = some (.u8, 1, 1) := by decide

/-- `START` before any load, V5.15: no fault. -/
theorem test_start :
    after (fun t => (t.cur, status t, delivered t)) (exec .start fresh) = some (0, 0, none) := by
  decide

/-- `PULL`, V5.1: the first value. -/
theorem test_pull_first :
    after (fun t => (delivered t, t.cur)) (exec .pull live) = some (some (127, .i), 1) := by decide

/-- `PULL`, V5.7: the last Q of the buffer, and the wrap. -/
theorem test_pull_wraps :
    after (fun t => (delivered t, t.cur)) (exec .pull (live.withCur 3575999))
      = some (some (0, .q), 0) := by decide

/-- `PULL` with nothing loaded, V7.1. -/
theorem test_pull_empty :
    after (fun t => (delivered t, t.cur, status t)) (exec .pull fresh) = some (none, 0, 6) := by
  decide

theorem test_sync :
    after (fun t => t.out) (exec .sync fresh)
      = some (.train [true, false, false, false, false, false, false, false, false]) := by decide
theorem test_bit0 :
    after (fun t => t.out) (exec .bit0 fresh) = some (.train [true, false, false]) := by decide
theorem test_bit1 :
    after (fun t => t.out) (exec .bit1 fresh) = some (.train [true, false, false, false, false]) := by
  decide
theorem test_s8_high : after (fun t => t.out) (exec .s8High fresh) = some (.level 0x7F .i) := by
  decide
theorem test_s8_low : after (fun t => t.out) (exec .s8Low fresh) = some (.level 0x00 .i) := by decide
theorem test_s8_q : after (fun t => t.out) (exec .s8Q fresh) = some (.level 0x00 .q) := by decide
theorem test_u8_high : after (fun t => t.out) (exec .u8High fresh) = some (.level 0xFF .i) := by
  decide
theorem test_u8_low : after (fun t => t.out) (exec .u8Low fresh) = some (.level 0x7F .i) := by decide
theorem test_u8_q : after (fun t => t.out) (exec .u8Q fresh) = some (.level 0x7F .q) := by decide

/-- V7.2: a command in a faulted state is not consumed. -/
theorem test_ldn_faulted :
    after (fun t => (t.loaded, status t, cmdReady t)) (exec (.ldn nSrc) faulted)
      = some (false, 6, false) := by decide

/-! ## The step -/

/-- V7.3: an illegal word. -/
theorem test_step_illegal :
    after status (step (fresh.withInputs [cmdCycle 0x5000000000])) = some 0xA := by decide

/-- V7.4: an illegal CFG with a frame loaded leaves FMT. -/
theorem test_step_illegal_loaded :
    after (fun t => (status t, t.fmt, t.cur))
        (step ((live.withCur 1).withInputs [cmdCycle 0x3000000002])) = some (0xB, .s8, 1) := by decide

/-- V5.16: a command and the strobe in one cycle: the command alone. -/
theorem test_step_cmd_over_pull :
    after (fun t => (delivered t, t.cur))
        (step ((live.withCur 5).withInputs [.pins ⟨false, true, 0x4000000000, true⟩]))
      = some (none, 0) := by decide

/-- V7.6: Reset is the way out of a fault, whatever the other pins. -/
theorem test_step_reset :
    after (fun t => (status t, t.cur, t.fmt))
        (step ((faulted.withCur 7).withInputs [.pins ⟨true, true, 0x5000000000, true⟩]))
      = some (0, 0, .s8) := by decide

/-- The next input of `withFetchWord` is the placed word; with no input a step is Idle. -/
theorem test_step_placed :
    after (fun t => t.nib) (step (fresh.withFetchWord 40 0x1F48107F14)) = some nSrc ∧
      after (fun t => (delivered t, status t)) (step fresh) = some (none, 0) := by decide

/-- V7.1 then V7.6, as inputs of one run: the fault, then the Reset. -/
theorem test_run_fault_reset :
    (runInputs [pullCycle, resetCycle] fresh).map (fun x => (x.1, status x.2)) = some ([], 0) := by
  decide

/-! ## Witnesses: for every obligation with hypotheses, inputs that meet them -/

theorem test_witness_live : live.fault = false ∧ live.loaded = true := by decide
theorem test_witness_fresh : fresh.fault = false ∧ fresh.loaded = false := by decide
theorem test_witness_faulted : faulted.fault = true := by decide

/-- HumidityNibbles, LdnLoadsNibbles, LdrLoadsPackedReading, CfgSetsFormat, StartZeroesCursor,
ElementsPutOutTrains, LevelsPutOutBytes. -/
theorem test_witness_no_fault : live.fault = false := by decide

/-- ChannelNibble: both ends of the valid channels. -/
theorem test_witness_channel : 1 ≤ (1 : BitVec 2).toNat ∧ 1 ≤ (3 : BitVec 2).toNat := by decide

/-- SettledTemperatureNibbles: a map the source allows, and both ends of the range. -/
theorem test_witness_temperature :
    ({ Config.hw with tempNibbles := fun t =>
        (BitVec.ofNat 4 (t.toNat / 256), BitVec.ofNat 4 (t.toNat / 16), BitVec.ofNat 4 t.toNat) } :
        Params).TempSettled ∧
      (0 ≤ (0 : BitVec 16).toInt ∧ (0 : BitVec 16).toInt ≤ 2047) ∧
      (0 ≤ (2047 : BitVec 16).toInt ∧ (2047 : BitVec 16).toInt ≤ 2047) :=
  ⟨fun _ _ _ => rfl, by decide, by decide⟩

/-- ElementSequence: each clause, at the last element and at a sync element. -/
theorem test_witness_elements :
    443 < 444 ∧ 443 % 37 = 35 + 1 ∧ (dataBits nSrc)[35]? = some false ∧ 407 % 37 = 0 ∧
      38 % 37 = 0 + 1 ∧ (dataBits nSrc)[0]? = some true := by decide

/-- SlotReadsFrame, SlotOneAtElementStarts: the last slot. -/
theorem test_witness_slots :
    116 < frameLen (Config.variant 1 1) nZero ∧ 1403 < frameLen Config.hw nZero := by decide

/-- FrameShape: each clause that has a hypothesis. -/
theorem test_witness_shape :
    frameLen Config.hw nZero - (if nZero.n8.getLsbD 0 then 5 else 3) < 1402 ∧
      1402 < frameLen Config.hw nZero ∧ slot Config.hw nZero 1401 = true ∧
      1401 + 1 < frameLen Config.hw nZero := by decide

/-- SampleReadsBuffer, ThresholdInvertsRender: OSR 1, the last value and the last pair. -/
theorem test_witness_samples :
    1 ≤ 1 ∧ 233 < streamLen (Config.variant 1 1) nZero ∧ 116 < pairLen (Config.variant 1 1) nZero := by
  decide

/-- EncodeDecode: a word of each format. -/
theorem test_witness_decode :
    decode (.cmd 0x4000000000) = .ok .start ∧ decode .strobe = .ok .pull ∧
      decode (.element [true, false, false]) = .ok .bit0 ∧
      decode (.level .u8 .q 127) = .ok .u8Q := by decide

/-- PullDeliversSample: a cursor in the middle and the last one. -/
theorem test_witness_pull :
    live.fault = false ∧ live.loaded = true ∧ live.cur.toNat < streamLen Config.hw live.nib ∧
      (live.withCur 3575999).cur.toNat + 1
        = streamLen Config.hw (live.withCur 3575999).nib := by decide

/-- PullEmptyFaults. -/
theorem test_witness_empty : fresh.fault = false ∧ fresh.loaded = false := by decide

/-- PullPutsOutItsLevel: the first index, a 1 slot's I, and the last, a Q (V4.1). -/
theorem test_witness_pull_level :
    live.fault = false ∧ live.loaded = true ∧ live.cur.toNat < streamLen Config.hw live.nib ∧
      levelAt Config.hw .s8 nSrc 0 = .s8High ∧ 3575999 < streamLen Config.hw nSrc ∧
      levelAt Config.hw .s8 nSrc 3575999 = .s8Q ∧ levelAt Config.hw .u8 nSrc 2000 = .u8Low := by
  decide

/-- StepRunsDecodedInstruction: each clause. -/
theorem test_witness_step :
    decode (.cmd 0x1F48107F14) = .ok (.ldn nSrc) ∧
      (live.withInputs [.pins ⟨false, true, 0x1F48107F14, true⟩]).fault = false ∧
      (live.withInputs [.pins ⟨false, false, 0, true⟩]).inputs = [.pins ⟨false, false, 0, true⟩] ∧
      (live.withInputs [.element [true, false, false]]).inputs = [.element [true, false, false]] ∧
      (live.withInputs [.level .s8 .q 0]).inputs = [.level .s8 .q 0] ∧
      decode (.level .s8 .q 0) = .ok .s8Q := by decide

/-- StepRunsPlacedWord. -/
theorem test_witness_placed :
    live.fault = false ∧ decodeTableWord 16 0x100 = some .sync := by decide

/-- IllegalWordFaults: the smallest and the largest word. -/
theorem test_witness_illegal :
    fresh.fault = false ∧
      (fresh.withInputs [.pins ⟨false, true, 0, true⟩]).inputs = [.pins ⟨false, true, 0, true⟩] ∧
      cmdLegal 0 = false ∧ cmdLegal 0xFFFFFFFFFF = false := by decide

/-- StageWordsThatStop: both clauses. -/
theorem test_witness_stage :
    fresh.fault = false ∧
      (fresh.withInputs [.element []]).inputs = [.element []] ∧ elementLegal [] = false ∧
      (fresh.withInputs [.level .s8 .i 1]).inputs = [.level .s8 .i 1] ∧
      levelLegal .s8 .i 1 = false := by decide

/-- ResetLeaves. -/
theorem test_witness_reset :
    (faulted.withInputs [resetCycle]).inputs = [.pins ⟨true, false, 0, false⟩] := by decide

/-- IdleChangesNothing: a faulted state with both requests high, a live one with both low, and no
input. -/
theorem test_witness_idle :
    (faulted.withInputs [.pins ⟨false, true, 0, true⟩]).fault = true ∧
      (live.withInputs [idleCycle]).inputs = [.pins ⟨false, false, 0, false⟩] ∧
      live.inputs = [] := by decide

/-- StepTotalOnPins. -/
theorem test_witness_total : ∀ c ∈ (live.withInputs [pullCycle]).inputs, IsPins c := by
  intro c hc
  rw [List.mem_singleton.1 hc]
  exact ⟨_, rfl⟩

/-- StepKeepsInvariant: a loaded state that delivers. -/
theorem test_witness_invariant :
    StateInv (live.withInputs [pullCycle]) ∧ ∃ t, step (live.withInputs [pullCycle]) = .next t :=
  ⟨⟨rfl, fun _ => streamLen_pos nSrc, fun h => nomatch h⟩, _, rfl⟩

/-- OnlyResetClears: a faulted and loaded state, a cycle without `rst`. -/
theorem test_witness_only_reset :
    ((faulted.withLoaded true).withInputs [pullCycle]).fault = true ∧
      ((faulted.withLoaded true).withInputs [pullCycle]).loaded = true ∧
      pullCycle = .pins ⟨false, false, 0, true⟩ ∧
      ∃ t, step ((faulted.withLoaded true).withInputs [pullCycle]) = .next t :=
  ⟨rfl, rfl, rfl, _, rfl⟩

/-- NibChangesOnlyByLoadOrReset: LDN and LDR (after a Reset NIB is a free value, of which no change can
be shown). -/
theorem test_witness_nib :
    after (fun t => decide (t.nib ≠ fresh.nib)) (step (fresh.withInputs [cmdCycle 0x1F48107F14]))
        = some true ∧
      after (fun t => decide (t.nib ≠ fresh.nib)) (step (fresh.withInputs [cmdCycle 0x2F44041C50]))
        = some true := by decide

/-- FaultedRunQuiescent: a faulted state with a pull to come. -/
theorem test_witness_quiescent :
    (faulted.withInputs [pullCycle]).fault = true ∧
      ∀ c ∈ (faulted.withInputs [pullCycle]).inputs, NoReset c := by
  refine ⟨rfl, fun c hc => ?_⟩
  rw [List.mem_singleton.1 hc]
  exact ⟨_, rfl, rfl⟩

/-- UnwrittenNibblesUnobservable: two states that differ in the unwritten content alone. -/
theorem test_witness_unwritten :
    fresh.loaded = false ∧ SameButNib fresh (fresh.withNib nSrc) ∧
      (fresh.withNib nSrc).nib ≠ fresh.nib := ⟨rfl, rfl, by decide⟩

/-- ResetErasesHistory: a loaded and a faulted state. -/
theorem test_witness_history :
    resetCycle = .pins ⟨true, false, 0, false⟩ ∧
      (live.withInputs [resetCycle, pullCycle]).inputs = [resetCycle, pullCycle] ∧
      (faulted.withInputs [resetCycle, pullCycle]).inputs = [resetCycle, pullCycle] := by decide

/-- FillDelivers, CircularReplay: any number of pulls. -/
theorem test_witness_fill (k : Nat) :
    live.fault = false ∧ live.loaded = true ∧ live.cur = 0 ∧
      live.cur.toNat < streamLen Config.hw live.nib ∧
      (live.withInputs (List.replicate k pullCycle)).inputs = List.replicate k pullCycle ++ [] :=
  ⟨rfl, rfl, rfl, streamLen_pos nSrc, (List.append_nil _).symm⟩

/-- FillEmptyFaults: no pull, and one. -/
theorem test_witness_fill_empty :
    fresh.fault = false ∧ fresh.loaded = false ∧
      fresh.inputs = List.replicate 0 pullCycle ++ [] ∧
      (fresh.withInputs [pullCycle]).inputs = List.replicate 1 pullCycle ++ [] := by decide

/-- LoadSeenByNextPull: LDN and LDR, in mid-stream, with a pull to come and with none. -/
theorem test_witness_load :
    (live.withCur 100).fault = false ∧
      decode (.cmd 0x1000000000) = .ok (.ldn nZero) ∧
      decode (.cmd 0x2F44041C50) = .ok (.ldr 244 1 263 20) ∧
      nSrc = pack Config.hw 244 1 263 20 ∧
      ((live.withCur 100).withInputs [.pins ⟨false, true, 0x2F44041C50, true⟩, pullCycle]).inputs
        = .pins ⟨false, true, 0x2F44041C50, true⟩ :: (List.replicate 1 pullCycle ++ []) ∧
      ((live.withCur 100).withInputs [.pins ⟨false, true, 0x1000000000, false⟩]).inputs
        = .pins ⟨false, true, 0x1000000000, false⟩ :: (List.replicate 0 pullCycle ++ []) := by
  decide

/-- IdleCyclesInvisible: an idle cycle between two pulls, its `cmd` pins not low; it is left out, a pull
is not. -/
theorem test_witness_idle_cycles :
    (∀ c ∈ [pullCycle, .pins ⟨false, false, 5, false⟩, pullCycle], IsPins c) ∧
      isIdleCycle (.pins ⟨false, false, 5, false⟩) = true ∧ isIdleCycle pullCycle = false ∧
      (live.withInputs [pullCycle, .pins ⟨false, false, 5, false⟩, pullCycle]).inputs
        = [pullCycle, .pins ⟨false, false, 5, false⟩, pullCycle] := by
  refine ⟨fun c hc => ?_, rfl, rfl, rfl⟩
  simp only [List.mem_cons, List.not_mem_nil, or_false] at hc
  obtain rfl | rfl | rfl := hc <;> exact ⟨_, rfl⟩

/-- StreamPeriodOneRepetition: the last index. -/
theorem test_witness_period :
    3277999 + 2000 * repLen Config.hw nSrc < streamLen Config.hw nSrc := by decide

/-- CursorMoves: each event and each kind of command word, a faulted state, and a stage word. -/
theorem test_witness_cursor :
    eventOf false ⟨true, true, 0, true⟩ = .reset ∧
      eventOf false ⟨false, true, 0x4000000000, true⟩ = .cmd 0x4000000000 ∧
      decode (.cmd 0x4000000000) = .ok .start ∧ decode (.cmd 0x3000000001) = .ok (.cfg .u8) ∧
      cmdLegal 0 = false ∧ eventOf false ⟨false, false, 0, true⟩ = .pull ∧
      live.loaded = true ∧ fresh.loaded = false ∧
      eventOf true ⟨false, true, 0, true⟩ = .idle ∧ faulted.fault = true := by decide

theorem test_witness_cursor_stage :
    (∃ t, step (live.withInputs [.element [true, false, false]]) = .next t) ∧
      ∀ p, (live.withInputs [.element [true, false, false]]).inputs.head? ≠ some (.pins p) :=
  ⟨⟨_, rfl⟩, fun _ h => by cases h⟩

/-- CountersRefineCursor, SameModulation: the first and the last index. -/
theorem test_witness_counters :
    0 < streamLen Config.hw nSrc ∧ 3575999 < streamLen Config.hw nSrc := by decide

end Sys2Proof.Tests
end

section
/-! PROOFS. The SampleBuffer as blocks of `2 * OSR` values, one block per slot, and what inverse
thresholding (R93) reads from it. -/

namespace Sys2Proof.Machine

/-! ## Lists made of blocks of one length -/

/-- Where every element becomes a block of `d` entries, entry `j` of block `s` comes from element
`s`. -/
theorem getElem?_flatMap_block {α β : Type} {g : α → List β} {d : Nat}
    (hg : ∀ a, (g a).length = d) {j : Nat} (hj : j < d) (xs : List α) (s : Nat) :
    (xs.flatMap g)[d * s + j]? = xs[s]?.bind fun a => (g a)[j]? := by
  induction xs generalizing s with
  | nil => simp
  | cons x xs ih =>
    rw [List.flatMap_cons]
    cases s with
    | zero =>
      rw [Nat.mul_zero, Nat.zero_add, List.getElem?_append_left (by rw [hg]; exact hj)]
      simp
    | succ s =>
      have hidx : d * (s + 1) + j = (g x).length + (d * s + j) := by rw [hg, Nat.mul_succ]; omega
      rw [hidx, List.getElem?_append_right (by omega), Nat.add_sub_cancel_left, ih,
        List.getElem?_cons_succ]

/-! ## The length of the Frame (R31, R155) -/

/-- The slots of one repetition are `RL` many (R31, R153). -/
theorem repSlots_length {c : Params} (hbits : c.nbits = 36) (hw : ∀ el, 0 < elemWidth c el)
    (n : NibbleFrame) : (repSlots c n).length = repLen c n := by
  have hexpand : (fun el => (expand c el).length) = elemWidth c :=
    funext fun el => expand_length (hw el)
  rw [repSlots, List.length_flatMap, hexpand, ← repWidths_sum hbits n, repWidths]

/-- The Frame has `FL` slots (R31, R155). -/
theorem frame_length {c : Params} (hbits : c.nbits = 36) (hw : ∀ el, 0 < elemWidth c el)
    (n : NibbleFrame) : (frame c n).length = frameLen c n := by
  simp [frame_eq_copies, repSlots_length hbits hw, frameLen]

/-- Every element has a slot, at every oversampling ratio and repetition count (R153). -/
theorem variant_elemWidth_pos (o r : Nat) (el : Element) :
    0 < elemWidth (Config.variant o r) el := by
  cases el <;> simp [elemWidth]

/-! ## One slot in the SampleBuffer (R167, R170) -/

@[simp] theorem up_length (c : Params) (f : Fmt) (b : Bool) : (up c f b).length = 2 * c.osr := by
  simp [up, Nat.mul_comm]

/-- A slot's block begins with the slot's I value (R167). -/
theorem up_getElem?_zero {c : Params} (h : 0 < c.osr) (f : Fmt) (b : Bool) :
    (up c f b)[0]? = some (levelValue c (levelI f b)) := by
  obtain ⟨k, hk⟩ := Nat.exists_eq_succ_of_ne_zero h.ne'
  simp [up, hk, List.replicate_succ]

/-- The SampleBuffer's block of slot `s` begins with that slot's I value (R170). -/
theorem sampleBuffer_getElem?_block_start {c : Params} (h : 0 < c.osr) (f : Fmt) (n : NibbleFrame)
    (s : Nat) :
    (sampleBuffer c f n)[2 * c.osr * s]? =
      (frame c n)[s]?.map fun b => levelValue c (levelI f b) := by
  have hblock := getElem?_flatMap_block (up_length c f) (j := 0) (by omega) (frame c n) s
  rw [sampleBuffer, Option.map_eq_bind]
  simpa [up_getElem?_zero h, Function.comp_def] using hblock

/-! ## Reading the values back (R93) -/

theorem sample_even (c : Params) (f : Fmt) (n : NibbleFrame) (p : Nat) :
    sample c f n (2 * p) = levelValue c (levelI f (slot c n (p / c.osr))) := by
  simp [sample, levelAt, phaseOf]

theorem sample_odd (c : Params) (f : Fmt) (n : NibbleFrame) (p : Nat) :
    sample c f n (2 * p + 1) = levelValue c (levelQ f) := by
  simp [sample, levelAt, phaseOf, Nat.add_mod]

/-- In both formats the I value is the high level exactly for a slot of 1 (R93, R166). -/
theorem variant_levelI_eq_high_iff (o r : Nat) (f : Fmt) (b : Bool) :
    levelValue (Config.variant o r) (levelI f b) = levelValue (Config.variant o r) (levelI f true) ↔
      b = true := by
  cases f <;> cases b <;> simp [levelI, levelValue, Config.variant, Config.hw]

/-- In both formats the I value is greater than the low level exactly for a slot of 1 (R93, R166). -/
theorem variant_levelI_gt_low_iff (o r : Nat) (f : Fmt) (b : Bool) :
    (levelValue (Config.variant o r) (levelI f false)).toNat
        < (levelValue (Config.variant o r) (levelI f b)).toNat ↔ b = true := by
  cases f <;> cases b <;> simp [levelI, levelValue, Config.variant, Config.hw]

/-- One decision of R93 gives back the slot whose I value it is given. -/
theorem variant_threshold_levelI (o r : Nat) (f : Fmt) (b : Bool) :
    threshold (Config.variant o r) f (levelValue (Config.variant o r) (levelI f b)) = b := by
  rw [Bool.eq_iff_iff, threshold, beq_iff_eq, variant_levelI_eq_high_iff]

/-- One decision per block of the SampleBuffer gives back the Frame (R93). -/
theorem thresholdSlots_sampleBuffer {o : Nat} (ho : 1 ≤ o) (r : Nat) (f : Fmt) (n : NibbleFrame) :
    thresholdSlots (Config.variant o r) f (frameLen (Config.variant o r) n)
      (sampleBuffer (Config.variant o r) f n) = frame (Config.variant o r) n := by
  have hlen := frame_length (variant_nbits o r) (variant_elemWidth_pos o r) n
  refine List.ext_getElem (by simp [thresholdSlots, hlen]) fun s _ hs => ?_
  have hread := sampleBuffer_getElem?_block_start (c := Config.variant o r) ho f n s
  rw [List.getElem?_eq_getElem hs, Option.map_some] at hread
  simp only [thresholdSlots, List.getElem_map, List.getElem_range, List.getD_eq_getElem?_getD, hread,
    Option.getD_some, variant_threshold_levelI]

/-- Settles O22: the values at the block starts are the slots' I values, and the two I levels of a
format differ. -/
theorem thresholdInvertsRender : Obligations.ThresholdInvertsRender := by
  intro o r f n ho
  refine ⟨thresholdSlots_sampleBuffer ho r f n, fun p _ => ⟨?_, ?_, sample_odd _ f n p⟩⟩
  · rw [sample_even, variant_levelI_eq_high_iff, variant_osr]
  · rw [sample_even, variant_levelI_gt_low_iff, variant_osr]

end Sys2Proof.Machine
end

section
/-! PROOFS. The field packer: the identity, humidity and marker nibbles of `Pack` (R115, R117,
R119), and that `LDR` loads what `Pack` makes (R114). -/

namespace Sys2Proof.Machine

/-! ## The two halves of a byte -/

/-- The upper nibble of a byte is its quotient by 16. -/
theorem extractLsb'_four_four_toNat (x : BitVec 8) : (x.extractLsb' 4 4).toNat = x.toNat / 16 := by
  rw [BitVec.extractLsb'_toNat, Nat.shiftRight_eq_div_pow]
  omega

/-- The lower nibble of a byte is its remainder by 16. -/
theorem extractLsb'_zero_four_toNat (x : BitVec 8) : (x.extractLsb' 0 4).toNat = x.toNat % 16 := by
  rw [BitVec.extractLsb'_toNat, Nat.shiftRight_zero]

/-! ## The nibbles of `Pack` that a field's byte or the configuration gives -/

section
variable (c : Params) (id : BitVec 8) (ch : BitVec 2) (t : BitVec 16) (h : BitVec 8)

@[simp] theorem pack_n0 : (pack c id ch t h).n0 = id.extractLsb' 4 4 := rfl
@[simp] theorem pack_n1 : (pack c id ch t h).n1 = id.extractLsb' 0 4 := rfl
@[simp] theorem pack_n6 : (pack c id ch t h).n6 = c.marker := rfl
@[simp] theorem pack_n7 : (pack c id ch t h).n7 = h.extractLsb' 4 4 := rfl
@[simp] theorem pack_n8 : (pack c id ch t h).n8 = h.extractLsb' 0 4 := rfl

end

@[simp] theorem hw_marker : Config.hw.marker = 0xF := rfl

/-- While FAULT = 0, `LDR` answers the state that has the packed nibbles loaded (R114). -/
theorem exec_ldr_live {s : State} (hs : s.fault = false) (id : BitVec 8) (ch : BitVec 2)
    (t : BitVec 16) (h : BitVec 8) :
    exec (.ldr id ch t h) s = .next (loadFrame (pack Config.hw id ch t h) s) :=
  whenLive_live hs

/-! ## The obligations -/

/-- Settles O1: the identity nibbles are the two halves of the id's byte. -/
theorem identityNibbles : Obligations.IdentityNibbles := by
  refine ⟨fun id ch t h => ⟨?_, ?_⟩, fun ch t h => ⟨?_, ?_⟩⟩
  · rw [pack_n0, extractLsb'_four_four_toNat]
  · rw [pack_n1, extractLsb'_zero_four_toNat]
  · rw [pack_n0]; decide
  · rw [pack_n1]; decide

/-- Settles O2: the humidity nibbles are the two halves of the humidity's byte, and the load checks
nothing. -/
theorem humidityNibbles : Obligations.HumidityNibbles := by
  refine ⟨fun id ch t h => ⟨?_, ?_⟩, fun id ch t => ⟨?_, ?_⟩, fun id ch t h s hs => ?_⟩
  · rw [pack_n7, extractLsb'_four_four_toNat]
  · rw [pack_n8, extractLsb'_zero_four_toNat]
  · rw [pack_n7]; decide
  · rw [pack_n8]; decide
  · exact ⟨_, exec_ldr_live hs id ch t h, loadFrame_loaded _ s, loadFrame_nib _ s⟩

/-- Settles O3: the marker is the configuration's constant, no field of the reading. -/
theorem markerNibble : Obligations.MarkerNibble := by
  intro id ch t h
  rw [pack_n6, hw_marker]

end Sys2Proof.Machine
end

section
/-! PROOFS. The frame encoder: where each data bit stands and which number they spell (R130), and that
`Elem` reads the element sequence (R131). -/

namespace Sys2Proof.Machine

/-! ## The data bits (R130) -/

@[simp] theorem nibbleBits_length (x : Nibble) : (nibbleBits x).length = 4 := rfl

/-- Bit `j` from the left of a nibble is its bit `3 - j` (R53). -/
theorem nibbleBits_getElem? (x : Nibble) {j : Nat} (hj : j < 4) :
    (nibbleBits x)[j]? = some (x.getLsbD (3 - j)) := by
  interval_cases j <;> rfl

/-- Data bit `4 * i + j` is bit `3 - j` of nibble `i` (R130). -/
theorem dataBits_getElem? (n : NibbleFrame) (i : Nat) {j : Nat} (hj : j < 4) :
    (dataBits n)[4 * i + j]? = (nibbleList n)[i]?.map fun x => x.getLsbD (3 - j) := by
  rw [dataBits, getElem?_flatMap_block nibbleBits_length hj, Option.map_eq_bind]
  simp only [nibbleBits_getElem? _ hj, Function.comp_def]

/-- Reading a nibble's bits after `acc` appends one hexadecimal digit to it. -/
theorem foldl_nibbleBits (acc : Nat) (x : Nibble) :
    (nibbleBits x).foldl (fun acc b => 2 * acc + b.toNat) acc = 16 * acc + x.toNat := by
  have hx : ∀ x : Nibble, (nibbleBits x).foldl (fun acc b => 2 * acc + b.toNat) 0 = x.toNat := by
    decide
  rw [← hx x]
  simp only [nibbleBits, List.foldl_cons, List.foldl_nil]
  omega

/-- A nibble appended to a word is its last hexadecimal digit. -/
theorem toNat_append_nibble {w : Nat} (x : BitVec w) (y : Nibble) :
    (x ++ y).toNat = 16 * x.toNat + y.toNat := by
  rw [BitVec.toNat_append, ← Nat.shiftLeft_add_eq_or_of_lt y.isLt, Nat.shiftLeft_eq, Nat.mul_comm]

/-- The payload is the number whose hexadecimal digits are the nibbles in index order (R82). -/
theorem payload_toNat (n : NibbleFrame) :
    n.payload.toNat = (nibbleList n).foldl (fun acc x => 16 * acc + x.toNat) 0 := by
  simp only [NibbleFrame.payload, toNat_append_nibble, nibbleList, List.foldl_cons, List.foldl_nil,
    Nat.mul_zero, Nat.zero_add]

/-- The data bits, read left to right, are the binary digits of the payload (R130). -/
theorem foldl_dataBits (n : NibbleFrame) :
    (dataBits n).foldl (fun acc b => 2 * acc + b.toNat) 0 = n.payload.toNat := by
  rw [dataBits, List.foldl_flatMap, payload_toNat]
  simp only [foldl_nibbleBits]

/-! ## The element sequence (R131) -/

/-- `Elem` at the start of a repetition. -/
theorem elem_sync {c : Params} {e : Nat} (h : e % (c.nbits + 1) = 0) (n : NibbleFrame) :
    elem c n e = .sync := by
  simp only [elem, h]

/-- `Elem` at a data element. -/
theorem elem_data {c : Params} {e j : Nat} (h : e % (c.nbits + 1) = j + 1) {n : NibbleFrame}
    {b : Bool} (hb : (dataBits n)[j]? = some b) : elem c n e = bitElement b := by
  simp only [elem, h, List.getD_eq_getElem?_getD, hb, Option.getD_some]

/-- `Elem` reads one repetition at the index's remainder. -/
theorem repetition_getElem? {c : Params} (hbits : c.nbits = 36) (n : NibbleFrame) (e : Nat) :
    (repetition n)[e % 37]? = some (elem c n e) := by
  cases h : e % 37 with
  | zero => rw [elem_sync (by rw [hbits, h])]; rfl
  | succ j =>
    have hj : j < (dataBits n).length := by rw [dataBits_length]; omega
    have hb := List.getElem?_eq_getElem hj
    rw [elem_data (by rw [hbits, h]) hb, repetition, List.getElem?_cons_succ, List.getElem?_map, hb,
      Option.map_some]

/-- `Elem` reads the element sequence at every index inside it (R131). -/
theorem elemSeq_getElem? {c : Params} (hbits : c.nbits = 36) (n : NibbleFrame) {e : Nat}
    (he : e < c.reps * 37) : (elemSeq c n)[e]? = some (elem c n e) := by
  have hrep : e / 37 < c.reps := by omega
  have hblock := getElem?_flatMap_block (g := fun _ : Unit => repetition n)
    (fun _ => repetition_length n) (Nat.mod_lt e (by omega)) (List.replicate c.reps ()) (e / 37)
  rwa [List.flatMap_replicate, Nat.div_add_mod, List.getElem?_replicate_of_lt hrep, Option.bind_some,
    repetition_getElem? hbits] at hblock

/-! ## The obligations -/

/-- Settles O8: the data bits are nine blocks of four, and each block appends one hexadecimal digit to
the number read so far. -/
theorem dataBitsInOrder : Obligations.DataBitsInOrder := by
  refine ⟨dataBits_length, fun n i j _ hj => dataBits_getElem? n i hj, foldl_dataBits,
    fun _ => rfl, ?_, ?_, ?_, ?_⟩ <;> decide

/-- Settles O9: the sequence is twelve blocks of one repetition, so element `e` is element `e % 37` of
a repetition. -/
theorem elementSequence : Obligations.ElementSequence := by
  intro n
  refine ⟨rfl, elemSeq_length Config.hw n, fun e he => ⟨elemSeq_getElem? hw_nbits n he, ?_, ?_⟩⟩
  · exact fun h => elem_sync h n
  · exact fun j h => ⟨elem_data h, elem_data h⟩

end Sys2Proof.Machine
end

section
/-! PROOFS. The symbol expander: the pulse train of each element (R150 to R152), and where the sync
element stands in a repetition. -/

namespace Sys2Proof.Machine

/-! ## The pulse trains and their widths (R90, R150 to R152) -/

/-- What the expander builds from an element's width is the element's train in the table of R90. -/
theorem hw_expand_eq_train (el : Element) : expand Config.hw el = el.train := by
  cases el <;> rfl

/-! ## The sync element in a repetition (R131, R150) -/

/-- No data bit becomes the sync element. -/
theorem bitElement_ne_sync (b : Bool) : bitElement b ≠ .sync := by
  cases b <;> simp [bitElement]

/-- The elements of data bits hold no sync element, whatever the bits. -/
theorem count_sync_map_bitElement (bs : List Bool) : (bs.map bitElement).count .sync = 0 := by
  rw [List.count_eq_zero, List.mem_map]
  rintro ⟨b, -, hb⟩
  exact bitElement_ne_sync b hb

/-- A repetition holds one sync element, the one it begins with. -/
theorem count_sync_repetition (n : NibbleFrame) : (repetition n).count .sync = 1 := by
  rw [repetition, List.count_cons_self, count_sync_map_bitElement]

/-! ## The obligations -/

/-- Settles O11: the trains are the table's, and the widths are the configuration's `W0` and `W1`. -/
theorem dataElementTrains : Obligations.DataElementTrains :=
  ⟨hw_expand_eq_train .bit0, hw_w0, hw_expand_eq_train .bit1, hw_w1⟩

/-- Settles O12: a repetition is the sync element followed by data elements, and none of those is the
sync element. -/
theorem syncTrain : Obligations.SyncTrain :=
  ⟨hw_expand_eq_train .sync, hw_syncw, fun n => ⟨rfl, count_sync_repetition n⟩⟩

end Sys2Proof.Machine
end

section
/-! PROOFS. The IQ upsampler: the bytes of the levels (R166), the pairs of one slot (R167), the
length of the SampleBuffer (R31, R170), and where its values are high (R173). -/

namespace Sys2Proof.Machine

/-! ## One slot (R167) -/

/-- The value of a slot's block at any index inside it: I at the even ones, Q at the odd ones. -/
theorem up_getElem? {c : Params} {k : Nat} (hk : k < 2 * c.osr) (f : Fmt) (b : Bool) :
    (up c f b)[k]? = some (levelValue c (if k % 2 = 0 then levelI f b else levelQ f)) := by
  have hpair : k / 2 < c.osr := by omega
  have hblock := getElem?_flatMap_block (d := 2)
    (g := fun _ : Unit => [levelValue c (levelI f b), levelValue c (levelQ f)]) (fun _ => rfl)
    (Nat.mod_lt k Nat.two_pos) (List.replicate c.osr ()) (k / 2)
  rw [List.flatMap_replicate, Nat.div_add_mod, List.getElem?_replicate_of_lt hpair,
    Option.bind_some] at hblock
  rw [up, hblock]
  rcases Nat.mod_two_eq_zero_or_one k with h | h <;> simp [h]

/-! ## The SampleBuffer (R31, R170, R173) -/

/-- The SampleBuffer has `L` values, in either format (R31, R170). -/
theorem sampleBuffer_length {c : Params} (hbits : c.nbits = 36) (hw : ∀ el, 0 < elemWidth c el)
    (f : Fmt) (n : NibbleFrame) : (sampleBuffer c f n).length = streamLen c n := by
  simp only [sampleBuffer, List.length_flatMap, up_length, List.map_const', List.sum_replicate_nat,
    frame_length hbits hw, streamLen, pairLen]
  ring

theorem hw_sampleBuffer_length (f : Fmt) (n : NibbleFrame) :
    (sampleBuffer Config.hw f n).length = streamLen Config.hw n :=
  sampleBuffer_length hw_nbits (variant_elemWidth_pos 1000 12) f n

/-- In neither format is the Q value the high level (R166). -/
theorem variant_levelQ_ne_high (o r : Nat) (f : Fmt) :
    levelValue (Config.variant o r) (levelQ f)
      ≠ levelValue (Config.variant o r) (levelI f true) := by
  cases f <;> simp [levelI, levelQ, levelValue, Config.variant, Config.hw]

/-- A value is high exactly when it is the I value of a slot of 1, a condition that does not name
the format (R173). -/
theorem variant_sample_eq_high_iff (o r : Nat) (f : Fmt) (n : NibbleFrame) (k : Nat) :
    sample (Config.variant o r) f n k = levelValue (Config.variant o r) (levelI f true) ↔
      k % 2 = 0 ∧ slot (Config.variant o r) n (k / 2 / o) = true := by
  obtain ⟨p, rfl | rfl⟩ := Nat.even_or_odd' k
  · simp [sample_even, variant_levelI_eq_high_iff]
  · simp [sample_odd, variant_levelQ_ne_high, Nat.add_mod]

/-! ## The obligations -/

/-- Settles O18: the level tables are the configuration's six bytes. -/
theorem levelTables : Obligations.LevelTables :=
  ⟨rfl, rfl, rfl, rfl, rfl, rfl⟩

/-- Settles O19: a slot is `OSR = 1000` blocks of one pair. -/
theorem oneSlotUpsampled : Obligations.OneSlotUpsampled :=
  fun f b => ⟨up_length Config.hw f b, fun _ hk => up_getElem? hk f b⟩

/-- Settles O21: both lengths are `L`, and both values are high under one condition. -/
theorem sameModulation : Obligations.SameModulation := by
  intro n
  refine ⟨?_, fun f => (hw_sampleBuffer_length f n).symm, fun k _ => ?_⟩
  · rw [hw_sampleBuffer_length, hw_sampleBuffer_length]
  · have hs8 := variant_sample_eq_high_iff 1000 12 .s8 n k
    have hu8 := variant_sample_eq_high_iff 1000 12 .u8 n k
    exact hs8.trans hu8.symm

end Sys2Proof.Machine
end

section
/-! PROOFS. The slot space: `Slot` reads the Frame (R156), where the 1 slots stand (R154, R157), and
how many elements of each kind there are (R133). -/

namespace Sys2Proof.Machine

/-! ## Elements by number (R133) -/

theorem bitElement_injective : Function.Injective bitElement := by decide

/-- The 0 bits are the others (R130). -/
theorem count_false_dataBits (n : NibbleFrame) : (dataBits n).count false = 36 - weight n := by
  have h := List.count_true_add_count_false (dataBits n)
  rw [dataBits_length] at h
  rw [weight]; omega

/-- The element sequence holds `REPS` times what a repetition holds (R131). -/
theorem count_elemSeq (c : Params) (n : NibbleFrame) (el : Element) :
    (elemSeq c n).count el = c.reps * (repetition n).count el := by
  simp [elemSeq, List.count_flatten]

/-- Settles O10: each of the twelve repetitions holds one SYNC and the elements of the data bits. -/
theorem elementCounts : Obligations.ElementCounts := by
  intro n
  have hbit1 : ((dataBits n).map bitElement).count .bit1 = weight n :=
    List.count_map_of_injective _ _ bitElement_injective true
  have hbit0 : ((dataBits n).map bitElement).count .bit0 = (dataBits n).count false :=
    List.count_map_of_injective _ _ bitElement_injective false
  refine ⟨?_, ?_, ?_⟩
  · rw [count_elemSeq, count_sync_repetition, hw_reps]
  · rw [count_elemSeq, hw_reps, repetition, List.count_cons_of_ne (by decide), hbit1]
  · rw [count_elemSeq, hw_reps, repetition, List.count_cons_of_ne (by decide), hbit0,
      count_false_dataBits]

/-! ## The lengths (R31, R155) -/

/-- Settles O13: the lengths of the built lists are `FL` and `L`, and these are linear in `w`. -/
theorem streamLengths : Obligations.StreamLengths := by
  intro n
  have hframe : (frame Config.hw n).length = frameLen Config.hw n :=
    frame_length hw_nbits (variant_elemWidth_pos 1000 12) n
  refine ⟨?_, hframe.symm, fun f => hw_sampleBuffer_length f n, hw_streamLen n, ?_⟩
  · rw [hframe, frameLen, hw_repLen, hw_reps]; omega
  · have := weight_le n
    rw [hw_streamLen]; omega

/-! ## `Slot` reads the Frame (R155, R156) -/

/-- A pulse train is 1 at its first slot and 0 at its others (R153). -/
theorem expand_getElem? {c : Params} {el : Element} {q : Nat} (hq : q < elemWidth c el) :
    (expand c el)[q]? = some (q == 0) := by
  cases q with
  | zero => rfl
  | succ q => rw [expand, List.getElem?_cons_succ, List.getElem?_replicate_of_lt (by omega)]; rfl

/-- The walk over the widths of any elements reads the slots of their expansions. -/
theorem flatMap_expand_getElem? {c : Params} (hw : ∀ el, 0 < elemWidth c el) (es : List Element)
    {q : Nat} (hq : q < (es.map (elemWidth c)).sum) :
    (es.flatMap (expand c))[q]? = some (walkSlot (es.map (elemWidth c)) q) := by
  induction es generalizing q with
  | nil => simp at hq
  | cons el es ih =>
    rw [List.map_cons, List.sum_cons] at hq
    rw [List.flatMap_cons, List.map_cons, walkSlot]
    split
    next hlt => rw [List.getElem?_append_left (by rwa [expand_length (hw el)]), expand_getElem? hlt]
    next hge =>
      rw [List.getElem?_append_right (by rw [expand_length (hw el)]; omega), expand_length (hw el)]
      exact ih (by omega)

theorem repLen_pos {c : Params} (hbits : c.nbits = 36) (hw : ∀ el, 0 < elemWidth c el)
    (n : NibbleFrame) : 0 < repLen c n := by
  have hsync : elemWidth c .sync ≤ (repWidths c n).sum := by simp [repWidths, repetition]
  rw [← repWidths_sum hbits n]
  exact (hw .sync).trans_le hsync

/-- `Slot` reads the Frame at every index inside it (R156). -/
theorem frame_getElem? {c : Params} (hbits : c.nbits = 36) (hw : ∀ el, 0 < elemWidth c el)
    (n : NibbleFrame) {s : Nat} (hs : s < frameLen c n) : (frame c n)[s]? = some (slot c n s) := by
  have hrep : s / repLen c n < c.reps := Nat.div_lt_of_lt_mul (by rwa [Nat.mul_comm])
  have hmod := Nat.mod_lt s (repLen_pos hbits hw n)
  have hblock := getElem?_flatMap_block (g := fun _ : Unit => repSlots c n)
    (fun _ => repSlots_length hbits hw n) hmod (List.replicate c.reps ()) (s / repLen c n)
  rw [List.flatMap_replicate, Nat.div_add_mod, List.getElem?_replicate_of_lt hrep,
    Option.bind_some] at hblock
  rw [frame_eq_copies, hblock]
  exact flatMap_expand_getElem? hw (repetition n) ((repWidths_sum hbits n).symm ▸ hmod)

/-- Settles O14: the Frame is `REPS` copies of one repetition, and in a repetition the walk over the
widths reads the expansions, by induction over the elements. -/
theorem slotReadsFrame : Obligations.SlotReadsFrame := fun o r n =>
  ⟨frame_length (variant_nbits o r) (variant_elemWidth_pos o r) n,
    fun _ hs => frame_getElem? (variant_nbits o r) (variant_elemWidth_pos o r) n hs⟩

/-! ## Slots by repetition, element and place in the element (R154, R199) -/

/-- The search finds an element from where it starts and a place inside it. -/
theorem findElem_take_sum_add {ws : List Nat} {m q : Nat} (hq : q < ws.getD m 0) :
    findElem ws ((ws.take m).sum + q) = (m, q) := by
  induction ws generalizing m with
  | nil => simp at hq
  | cons w ws ih =>
    cases m with
    | zero =>
      have hlt : q < w := hq
      simp [findElem, hlt]
    | succ m =>
      have hnot : ¬ w + (ws.take m).sum + q < w := by omega
      have hsub : w + (ws.take m).sum + q - w = (ws.take m).sum + q := by omega
      simp only [List.take_succ_cons, List.sum_cons, findElem, if_neg hnot, hsub,
        ih (m := m) (by simpa using hq)]

/-- Entry `m` of the widths of a repetition is `W(m)` (R199). -/
theorem repWidths_getD {c : Params} (hbits : c.nbits = 36) (n : NibbleFrame) {m : Nat}
    (hm : m < 37) : (repWidths c n).getD m 0 = counterWidth c n m := by
  have h := repetition_getElem? hbits n m
  rw [Nat.mod_eq_of_lt hm] at h
  rw [List.getD_eq_getElem?_getD, repWidths, List.getElem?_map, h]
  rfl

@[simp] theorem elemOffset_zero (c : Params) (n : NibbleFrame) : elemOffset c n 0 = 0 := rfl

/-- The next element starts where one ends (R154). -/
theorem elemOffset_succ {c : Params} (hbits : c.nbits = 36) (n : NibbleFrame) {m : Nat}
    (hm : m < 37) : elemOffset c n (m + 1) = elemOffset c n m + counterWidth c n m := by
  have hlt : m < (repWidths c n).length := by rwa [repWidths_length]
  rw [elemOffset, List.sum_take_succ _ m hlt, ← List.getD_eq_getElem _ 0 hlt,
    repWidths_getD hbits n hm, elemOffset]

/-- The last element ends where the repetition does (R154). -/
theorem elemOffset_end {c : Params} (hbits : c.nbits = 36) (n : NibbleFrame) :
    elemOffset c n 37 = repLen c n := by
  rw [elemOffset, List.take_of_length_le (by rw [repWidths_length]), repWidths_sum hbits]

/-- An element of a repetition ends inside the repetition. -/
theorem elemOffset_add_width_le {c : Params} (hbits : c.nbits = 36) (n : NibbleFrame) {m : Nat}
    (hm : m < 37) : elemOffset c n m + counterWidth c n m ≤ repLen c n := by
  have hsplit := List.sum_take_add_sum_drop (repWidths c n) (m + 1)
  have hoff := elemOffset_succ hbits n hm
  rw [repWidths_sum hbits] at hsplit
  rw [elemOffset] at hoff
  omega

/-- A slot position is a place in an element of a repetition. -/
theorem exists_slot_place {c : Params} (hbits : c.nbits = 36) (hw : ∀ el, 0 < elemWidth c el)
    (n : NibbleFrame) (s : Nat) :
    ∃ m < 37, ∃ q < counterWidth c n m,
      s = s / repLen c n * repLen c n + elemOffset c n m + q := by
  have hlt : s % repLen c n < (repWidths c n).sum := by
    rw [repWidths_sum hbits]; exact Nat.mod_lt s (repLen_pos hbits hw n)
  obtain ⟨hm, hq, hsum⟩ := findElem_spec hlt
  rw [repWidths_length] at hm
  rw [repWidths_getD hbits n hm] at hq
  refine ⟨_, hm, _, hq, ?_⟩
  rw [elemOffset, Nat.add_assoc, hsum, Nat.mul_comm, Nat.div_add_mod]

section
variable {c : Params} (hbits : c.nbits = 36) (n : NibbleFrame) {m q : Nat} (hm : m < 37)
  (hq : q < counterWidth c n m) (r : Nat)
include hbits hm hq

/-- The place's position in the repetition. -/
theorem slot_place_mod : (r * repLen c n + elemOffset c n m + q) % repLen c n
    = elemOffset c n m + q := by
  have := elemOffset_add_width_le hbits n hm
  rw [Nat.add_assoc, Nat.mul_add_mod', Nat.mod_eq_of_lt (by omega)]

/-- The place's repetition. -/
theorem slot_place_div : (r * repLen c n + elemOffset c n m + q) / repLen c n = r := by
  have := elemOffset_add_width_le hbits n hm
  rw [Nat.add_assoc, Nat.mul_comm, Nat.mul_add_div (by omega), Nat.div_eq_of_lt (by omega),
    Nat.add_zero]

/-- The search from the place's position finds it. -/
theorem findElem_place :
    findElem (repWidths c n) (elemOffset c n m + q) = (m, q) :=
  findElem_take_sum_add (by rwa [repWidths_getD hbits n hm])

/-- `Slot` is 1 exactly at the first place of an element (R156). -/
theorem slot_place : slot c n (r * repLen c n + elemOffset c n m + q) = (q == 0) := by
  have hle := elemOffset_add_width_le hbits n hm
  rw [slot, slot_place_mod hbits n hm hq r,
    walkSlot_eq_findElem (by rw [repWidths_sum hbits]; omega), findElem_place hbits n hm hq]

end

/-- Where element `37 * r + m` starts (R154). -/
theorem elemStart_eq {c : Params} (hbits : c.nbits = 36) (n : NibbleFrame) {m : Nat} (hm : m < 37)
    (r : Nat) : elemStart c n (37 * r + m) = r * repLen c n + elemOffset c n m := by
  have hdiv : (37 * r + m) / 37 = r := by omega
  have hmod : (37 * r + m) % 37 = m := by omega
  rw [elemStart, hbits, hdiv, hmod]

theorem counterWidth_pos {c : Params} (hw : ∀ el, 0 < elemWidth c el) (n : NibbleFrame) (m : Nat) :
    0 < counterWidth c n m := hw _

theorem hw_elemWidth_pos (el : Element) : 0 < elemWidth Config.hw el :=
  variant_elemWidth_pos 1000 12 el

/-- Settles O15: a position is a place in an element, and both sides say that it is the first. -/
theorem slotOneAtElementStarts : Obligations.SlotOneAtElementStarts := by
  intro n s hs
  constructor
  · intro hone
    obtain ⟨m, hm, q, hq, hplace⟩ := exists_slot_place hw_nbits hw_elemWidth_pos n s
    rw [hplace, slot_place hw_nbits n hm hq, beq_iff_eq] at hone
    have hrep : s / repLen Config.hw n < 12 := Nat.div_lt_of_lt_mul (by rwa [Nat.mul_comm])
    refine ⟨37 * (s / repLen Config.hw n) + m, by omega, ?_⟩
    rw [elemStart_eq hw_nbits n hm]
    omega
  · rintro ⟨e, -, rfl⟩
    have hm : e % 37 < 37 := Nat.mod_lt e (by omega)
    rw [← Nat.div_add_mod e 37, elemStart_eq hw_nbits n hm]
    exact slot_place hw_nbits n hm (counterWidth_pos hw_elemWidth_pos n _) (e / 37)

/-! ## The shape of the Frame (R157) -/

/-- The width of the sync element. -/
@[simp] theorem hw_counterWidth_zero (n : NibbleFrame) : counterWidth Config.hw n 0 = 9 := rfl

/-- The width of the last data element. -/
theorem hw_counterWidth_last (n : NibbleFrame) :
    counterWidth Config.hw n 36 = if n.n8.getLsbD 0 then 5 else 3 := by
  have h : counterWidth Config.hw n 36 = elemWidth Config.hw (bitElement (n.n8.getLsbD 0)) := rfl
  rw [h]; cases n.n8.getLsbD 0 <;> rfl

/-- Every element has more than one slot (R153). -/
theorem hw_one_lt_counterWidth (n : NibbleFrame) (m : Nat) : 1 < counterWidth Config.hw n m := by
  rw [counterWidth]; cases elem Config.hw n m <;> decide

/-- Inside the first element. -/
theorem hw_slot_sync (n : NibbleFrame) {q : Nat} (hq : q < 9) : slot Config.hw n q = (q == 0) := by
  have h := slot_place hw_nbits n (m := 0) (by omega) hq 0
  rwa [elemOffset_zero, Nat.zero_mul, Nat.zero_add] at h

/-- Inside the last element of the Frame, whose width is `w`. -/
theorem hw_slot_last (n : NibbleFrame) {w q : Nat} (hw : counterWidth Config.hw n 36 = w)
    (hq : q < w) : slot Config.hw n (frameLen Config.hw n - w + q) = (q == 0) := by
  have hend : repLen Config.hw n = elemOffset Config.hw n 36 + w := by
    rw [← elemOffset_end hw_nbits, elemOffset_succ hw_nbits n (by omega), hw]
  have hpos : frameLen Config.hw n - w
      = 11 * repLen Config.hw n + elemOffset Config.hw n 36 := by
    rw [frameLen, hw_reps]; omega
  rw [hpos]
  exact slot_place hw_nbits n (by omega) (by rwa [hw]) 11

/-- Two neighbouring slots are never both 1: the second one is inside the first one's element. -/
theorem hw_slot_succ_of_slot (n : NibbleFrame) {s : Nat} (h : slot Config.hw n s = true) :
    slot Config.hw n (s + 1) = false := by
  obtain ⟨m, hm, q, hq, hplace⟩ := exists_slot_place hw_nbits hw_elemWidth_pos n s
  rw [hplace, slot_place hw_nbits n hm hq, beq_iff_eq] at h
  subst h
  rw [hplace, Nat.add_zero, slot_place hw_nbits n hm (hw_one_lt_counterWidth n m)]
  rfl

/-- Settles O16: the first slots are those of the sync element and of the start of the next one, the
last are those of the last data element. -/
theorem frameShape : Obligations.FrameShape := by
  intro n
  have hlast := hw_counterWidth_last n
  have hle : 9 ≤ frameLen Config.hw n := by rw [frameLen, hw_repLen, hw_reps]; omega
  have hw : (if n.n8.getLsbD 0 then 5 else 3) ≤ 5 ∧ 2 ≤ (if n.n8.getLsbD 0 then 5 else 3) := by
    split <;> decide
  generalize (if n.n8.getLsbD 0 then 5 else 3) = w at hlast hw ⊢
  have htail := fun q (hq : q < w) => hw_slot_last n hlast hq
  refine ⟨hw_slot_sync n (by omega), fun s h1 h8 => ?_, ?_, ?_, ?_, fun s hgt hlt => ?_,
    fun s _ h => hw_slot_succ_of_slot n h⟩
  · rw [hw_slot_sync n (by omega), beq_eq_false_iff_ne]; omega
  · have h := slot_place hw_nbits n (m := 1) (by omega) (counterWidth_pos hw_elemWidth_pos n 1) 0
    rwa [elemOffset_succ hw_nbits n (by omega), hw_counterWidth_zero, elemOffset_zero,
      Nat.zero_mul] at h
  · have h := htail (w - 1) (by omega)
    rw [show frameLen Config.hw n - w + (w - 1) = frameLen Config.hw n - 1 by omega] at h
    rw [h, beq_eq_false_iff_ne]; omega
  · exact htail 0 (by omega)
  · have h := htail (s - (frameLen Config.hw n - w)) (by omega)
    rw [show frameLen Config.hw n - w + (s - (frameLen Config.hw n - w)) = s by omega] at h
    rw [h, beq_eq_false_iff_ne]; omega

end Sys2Proof.Machine
end

section
/-! PROOFS. Reading the slot stream back (R91): cutting and classifying inverts the expansion, and
grouping the data elements after each SYNC inverts the element sequence. -/

namespace Sys2Proof.Machine

/-! ## Cutting and classifying -/

/-- 0s before a sequence lengthen its leading run. -/
theorem cutSlots_zeros_append (k : Nat) (bs : List Bool) :
    cutSlots (List.replicate k false ++ bs) = ((cutSlots bs).1 + k, (cutSlots bs).2) := by
  induction k with
  | zero => rfl
  | succ k ih => rw [List.replicate_succ, List.cons_append, cutSlots, ih]; rfl

/-- The cut of any elements' slots: no leading 0s, and for each element the number of its 0s. -/
theorem cutSlots_flatMap_expand (c : Params) (es : List Element) :
    cutSlots (es.flatMap (expand c)) = (0, es.map fun el => elemWidth c el - 1) := by
  induction es with
  | nil => rfl
  | cons el es ih =>
    rw [List.flatMap_cons, expand, List.cons_append, cutSlots, cutSlots_zeros_append, ih,
      Nat.zero_add, List.map_cons]

/-- The number of 0s tells the three elements apart. -/
theorem variant_classify_width (o r : Nat) (el : Element) :
    classify (Config.variant o r) (elemWidth (Config.variant o r) el - 1) = some el := by
  cases el <;> rfl

/-- A classification that answers every piece answers the list of all. -/
theorem mapM_map_eq_some {α β : Type} {f : β → Option α} {g : α → β} (h : ∀ a, f (g a) = some a)
    (xs : List α) : (xs.map g).mapM f = some xs := by
  induction xs with
  | nil => rfl
  | cons x xs ih => rw [List.map_cons, List.mapM_cons, h, ih]; rfl

theorem decodeSlots_frame (o r : Nat) (n : NibbleFrame) :
    decodeSlots (Config.variant o r) (frame (Config.variant o r) n)
      = some (elemSeq (Config.variant o r) n) := by
  rw [decodeSlots, frame, cutSlots_flatMap_expand, if_pos rfl]
  exact mapM_map_eq_some (variant_classify_width o r) _

/-! ## From the elements to the nibbles -/

/-- Data elements before a sequence give their bits to its leading part. -/
theorem splitAtSync_data_append (bs : List Bool) (es : List Element) :
    splitAtSync (bs.map bitElement ++ es) = (bs ++ (splitAtSync es).1, (splitAtSync es).2) := by
  induction bs with
  | nil => rfl
  | cons b bs ih =>
    cases b <;> simp only [List.map_cons, List.cons_append, bitElement, Bool.false_eq_true, if_true,
      if_false, splitAtSync, ih]

/-- The element sequence splits into the data bits, once per repetition. -/
theorem splitAtSync_elemSeq (c : Params) (n : NibbleFrame) :
    splitAtSync (elemSeq c n) = ([], List.replicate c.reps (dataBits n)) := by
  unfold elemSeq
  induction c.reps with
  | zero => rfl
  | succ r ih =>
    rw [List.replicate_succ, List.flatten_cons, repetition, List.cons_append, splitAtSync,
      splitAtSync_data_append, ← repetition, ih, List.append_nil, List.replicate_succ]

theorem bitsNibble_nibbleBits (x : Nibble) :
    bitsNibble (x.getLsbD 3) (x.getLsbD 2) (x.getLsbD 1) (x.getLsbD 0) = x := by
  revert x; decide

/-- Grouping inverts writing nibbles out as bits. -/
theorem groupNibbles_flatMap_nibbleBits (xs : List Nibble) :
    groupNibbles (xs.flatMap nibbleBits) = some xs := by
  induction xs with
  | nil => rfl
  | cons x xs ih =>
    rw [List.flatMap_cons, nibbleBits]
    simp only [List.cons_append, List.nil_append, groupNibbles, ih, bitsNibble_nibbleBits,
      Option.map_some]

theorem bitsFrame_dataBits (n : NibbleFrame) : bitsFrame (dataBits n) = some n := by
  rw [bitsFrame, dataBits, groupNibbles_flatMap_nibbleBits]
  rfl

/-- Settles O17: the cut gives each element's number of 0s, by induction over the elements, and the
split gives the data bits of each repetition, by induction over the repetitions. -/
theorem receiverInvertsFrame : Obligations.ReceiverInvertsFrame := by
  intro o r n
  have hdecode := decodeSlots_frame o r n
  refine ⟨hdecode, ?_⟩
  rw [receive, hdecode, Option.bind_some, splitAtSync_elemSeq, if_pos rfl, variant_reps,
    ← List.map_replicate, mapM_map_eq_some bitsFrame_dataBits]

end Sys2Proof.Machine
end

section
/-! PROOFS. The sample space: `Sample` reads the SampleBuffer (R171), and its period (R198). -/

namespace Sys2Proof.Machine

/-- `Sample` reads the SampleBuffer at every index inside it: entry `k` is entry `k % (2 * OSR)` of
the block of slot `k / (2 * OSR)` (R171). -/
theorem sampleBuffer_getElem? {c : Params} (hbits : c.nbits = 36) (hw : ∀ el, 0 < elemWidth c el)
    (hosr : 0 < c.osr) (f : Fmt) (n : NibbleFrame) {k : Nat} (hk : k < streamLen c n) :
    (sampleBuffer c f n)[k]? = some (sample c f n k) := by
  have hs : k / (2 * c.osr) < frameLen c n :=
    Nat.div_lt_of_lt_mul (by rwa [Nat.mul_assoc])
  have hj : k % (2 * c.osr) < 2 * c.osr := Nat.mod_lt k (by omega)
  have hblock := getElem?_flatMap_block (up_length c f) hj (frame c n) (k / (2 * c.osr))
  rw [Nat.div_add_mod, frame_getElem? hbits hw n hs, Option.bind_some, up_getElem? hj,
    Nat.mod_mul_right_mod, ← Nat.div_div_eq_div_mul] at hblock
  rw [sampleBuffer, hblock, sample, levelAt, phaseOf]
  split <;> rfl

/-- Settles O20: the SampleBuffer is one block of `2 * OSR` values per slot, and `Slot` reads the
Frame. -/
theorem sampleReadsBuffer : Obligations.SampleReadsBuffer := fun o r f n ho =>
  ⟨sampleBuffer_length (variant_nbits o r) (variant_elemWidth_pos o r) f n,
    fun _ hk => sampleBuffer_getElem? (variant_nbits o r) (variant_elemWidth_pos o r) ho f n hk⟩

/-- The whole SampleBuffer is `Sample` of the indices in order (R170, R171). -/
theorem hw_sampleBuffer_eq_map (f : Fmt) (n : NibbleFrame) :
    sampleBuffer Config.hw f n
      = (List.range (streamLen Config.hw n)).map (sample Config.hw f n) := by
  refine List.ext_getElem? fun k => ?_
  by_cases hk : k < streamLen Config.hw n
  · rw [sampleBuffer_getElem? hw_nbits hw_elemWidth_pos (by decide) f n hk, List.getElem?_map,
      List.getElem?_range hk, Option.map_some]
  · rw [List.getElem?_eq_none (by rw [hw_sampleBuffer_length]; omega),
      List.getElem?_eq_none (by rw [List.length_map, List.length_range]; omega)]

/-- The first value is the high I level (R157, R166). -/
theorem hw_sample_zero (f : Fmt) (n : NibbleFrame) :
    sample Config.hw f n 0 = levelValue Config.hw (levelI f true) := by
  have h := sample_even Config.hw f n 0
  rwa [hw_osr, Nat.zero_div, hw_slot_sync n (by omega)] at h

/-- The slot space has the period of one repetition (R132, R156). -/
theorem slot_add_repLen (c : Params) (n : NibbleFrame) (s : Nat) :
    slot c n (s + repLen c n) = slot c n s := by
  rw [slot, Nat.add_mod_right, slot]

/-- Settles O57: `2000 * RL` values on, the phase is the same and the slot is `RL` slots on. -/
theorem streamPeriodOneRepetition : Obligations.StreamPeriodOneRepetition := by
  intro f n k
  refine ⟨?_, fun _ => ?_⟩
  · rw [hw_streamLen, hw_repLen]; omega
  · have hphase : phaseOf (k + 2000 * repLen Config.hw n) = phaseOf k := by
      rw [phaseOf, phaseOf]; congr 2; omega
    have hslot : (k + 2000 * repLen Config.hw n) / 2 / Config.hw.osr
        = k / 2 / Config.hw.osr + repLen Config.hw n := by
      rw [hw_osr]; omega
    rw [sample, levelAt, hphase, hslot, slot_add_repLen, sample, levelAt]

end Sys2Proof.Machine
end

section
/-! PROOFS. The decoder: which words match which row (R86, R88), and that decoding inverts
encoding in both directions (R82 to R85, R90, R92, R96). -/

namespace Sys2Proof.Machine

/-! ## Words as concatenated fields -/

/-- Concatenations of fields of the same widths are equal field by field. -/
theorem append_eq_append_iff {a b : Nat} {x x' : BitVec a} {y y' : BitVec b} :
    x ++ y = x' ++ y' ↔ x = x' ∧ y = y' := by
  refine ⟨fun h => ⟨?_, ?_⟩, fun ⟨hx, hy⟩ => hx ▸ hy ▸ rfl⟩
  · rw [← BitVec.extractLsb'_append_eq_left (a := x) (b := y), h, BitVec.extractLsb'_append_eq_left]
  · rw [← BitVec.extractLsb'_append_eq_right (a := x) (b := y), h,
      BitVec.extractLsb'_append_eq_right]

/-- A masked comparison of concatenated fields compares field by field. -/
theorem append_and_eq_iff {a b : Nat} (x m p : BitVec a) (y m' p' : BitVec b) :
    (x ++ y) &&& (m ++ m') = p ++ p' ↔ x &&& m = p ∧ y &&& m' = p' := by
  rw [BitVec.and_append, append_eq_append_iff]

/-- A word is its opcode followed by its payload (R81). -/
theorem opcode_append_payload (w : CmdWord) : w.extractLsb' 36 4 ++ w.extractLsb' 0 36 = w :=
  (BitVec.extractLsb'_append_extractLsb'_eq_extractLsb' (start₁ := 0) (len₁ := 36) rfl).trans
    BitVec.extractLsb'_eq_self

/-- A word is its opcode, the middle and the last two bits, as in format R (R83). -/
theorem opcode_append_fields_append_low_two (w : CmdWord) :
    w.extractLsb' 36 4 ++ w.extractLsb' 2 34 ++ w.extractLsb' 0 2 = w := by
  rw [BitVec.extractLsb'_append_extractLsb'_eq_extractLsb' (start₁ := 2) (len₁ := 34) rfl]
  exact (BitVec.extractLsb'_append_extractLsb'_eq_extractLsb' rfl).trans BitVec.extractLsb'_eq_self

/-- A word is its opcode, the middle and the last bit, as in format C (R84). -/
theorem opcode_append_fields_append_low_one (w : CmdWord) :
    w.extractLsb' 36 4 ++ w.extractLsb' 1 35 ++ w.extractLsb' 0 1 = w := by
  rw [BitVec.extractLsb'_append_extractLsb'_eq_extractLsb' (start₁ := 1) (len₁ := 35) rfl]
  exact (BitVec.extractLsb'_append_extractLsb'_eq_extractLsb' rfl).trans BitVec.extractLsb'_eq_self

/-! ## The four rows (R86) in the terms of R88: the opcode, and the reserved bits of its format -/

theorem rowLdn_matches_iff (w : CmdWord) : rowLdn.matches w = true ↔ w.extractLsb' 36 4 = 1#4 := by
  have h := append_and_eq_iff (w.extractLsb' 36 4) (BitVec.allOnes 4) 1#4
    (w.extractLsb' 0 36) 0#36 0#36
  rw [opcode_append_payload, BitVec.and_allOnes] at h
  rw [CmdRow.matches, beq_iff_eq]
  exact h.trans (and_iff_left BitVec.and_zero)

theorem rowLdr_matches_iff (w : CmdWord) :
    rowLdr.matches w = true ↔ w.extractLsb' 36 4 = 2#4 ∧ w.extractLsb' 0 2 = 0#2 := by
  have h := append_and_eq_iff (w.extractLsb' 36 4 ++ w.extractLsb' 2 34) (BitVec.allOnes 4 ++ 0#34)
    (2#4 ++ 0#34) (w.extractLsb' 0 2) (BitVec.allOnes 2) 0#2
  rw [opcode_append_fields_append_low_two, append_and_eq_iff, BitVec.and_allOnes,
    BitVec.and_allOnes, and_iff_left BitVec.and_zero] at h
  rw [CmdRow.matches, beq_iff_eq]
  exact h

theorem rowCfg_matches_iff (w : CmdWord) :
    rowCfg.matches w = true ↔ w.extractLsb' 36 4 = 3#4 ∧ w.extractLsb' 1 35 = 0#35 := by
  have h := append_and_eq_iff (w.extractLsb' 36 4 ++ w.extractLsb' 1 35)
    (BitVec.allOnes 4 ++ BitVec.allOnes 35) (3#4 ++ 0#35) (w.extractLsb' 0 1) 0#1 0#1
  rw [opcode_append_fields_append_low_one, append_and_eq_iff, BitVec.and_allOnes,
    BitVec.and_allOnes, and_iff_left BitVec.and_zero] at h
  rw [CmdRow.matches, beq_iff_eq]
  exact h

theorem rowStart_matches_iff (w : CmdWord) :
    rowStart.matches w = true ↔ w.extractLsb' 36 4 = 4#4 ∧ w.extractLsb' 0 36 = 0#36 := by
  rw [CmdRow.matches, beq_iff_eq, ← append_eq_append_iff, opcode_append_payload,
    show rowStart.mask = BitVec.allOnes 40 from rfl, BitVec.and_allOnes]
  rfl

/-- A word has the opcode of the row it matches. -/
theorem opcode_of_matches {r : CmdRow} (hr : r ∈ cmdRows) {w : CmdWord} (h : r.matches w = true) :
    w.extractLsb' 36 4 = r.pattern.extractLsb' 36 4 := by
  simp only [cmdRows, List.mem_cons, List.not_mem_nil, or_false] at hr
  obtain rfl | rfl | rfl | rfl := hr
  · exact (rowLdn_matches_iff w).1 h
  · exact ((rowLdr_matches_iff w).1 h).1
  · exact ((rowCfg_matches_iff w).1 h).1
  · exact ((rowStart_matches_iff w).1 h).1

/-- Settles O26: the four rows ask for four opcodes. -/
theorem commandRowsDisjoint : Obligations.CommandRowsDisjoint := by
  have hopcodes : cmdRows.Pairwise fun a b =>
      a.pattern.extractLsb' 36 4 ≠ b.pattern.extractLsb' 36 4 := by decide
  refine hopcodes.imp_of_mem fun ha hb hne w => ?_
  rintro ⟨hwa, hwb⟩
  exact hne ((opcode_of_matches ha hwa).symm.trans (opcode_of_matches hb hwb))

/-! ## Legal command words (R88) -/

/-- A command word is legal exactly when it matches a row. -/
theorem cmdLegal_iff (w : CmdWord) : cmdLegal w = true ↔ rowLdn.matches w = true ∨
    rowLdr.matches w = true ∨ rowCfg.matches w = true ∨ rowStart.matches w = true := by
  rw [rowLdn_matches_iff, rowLdr_matches_iff, rowCfg_matches_iff, rowStart_matches_iff, cmdLegal]
  simp only [← BitVec.toNat_inj (x := w.extractLsb' 36 4), BitVec.toNat_ofNat]
  split <;> simp_all

/-- The decoder accepts the words that match a row, and so the legal ones. -/
theorem decodeCmd_ok_iff (w : CmdWord) : (∃ i, decodeCmd w = .ok i) ↔ cmdLegal w = true := by
  rw [cmdLegal_iff]
  unfold decodeCmd
  repeat' split
  all_goals simp_all

theorem decodeCmd_of_illegal {w : CmdWord} (h : cmdLegal w = false) :
    ∃ e, decodeCmd w = .error e := by
  cases hd : decodeCmd w with
  | error e => exact ⟨e, rfl⟩
  | ok i => exact absurd ((decodeCmd_ok_iff w).1 ⟨i, hd⟩) (by rw [h]; decide)

/-! ## Command words: decoding inverts encoding (R82 to R85) -/

/-- The nine nibbles of a word are its payload (R82). -/
theorem payload_ofPayload (w : CmdWord) :
    (NibbleFrame.ofPayload w).payload = w.extractLsb' 0 36 := by
  simp only [NibbleFrame.payload, NibbleFrame.ofPayload,
    BitVec.extractLsb'_append_extractLsb'_eq_extractLsb']

theorem payload_inj {n m : NibbleFrame} (h : n.payload = m.payload) : n = m := by
  have hdigits := congrArg BitVec.toNat h
  simp only [payload_toNat, nibbleList, List.foldl_cons, List.foldl_nil] at hdigits
  cases n; cases m
  simp only [NibbleFrame.mk.injEq, ← BitVec.toNat_inj] at hdigits ⊢
  omega

/-- A word of opcode 1 is the LDN of its nine nibbles. -/
theorem encodeLdn_ofPayload {w : CmdWord} (h : rowLdn.matches w = true) :
    encodeLdn (NibbleFrame.ofPayload w) = w := by
  rw [rowLdn_matches_iff] at h
  rw [encodeLdn, payload_ofPayload, ← h]
  exact opcode_append_payload w

/-- A word of the row of LDR is the LDR of its four fields. -/
theorem encodeLdr_fields {w : CmdWord} (h : rowLdr.matches w = true) :
    encodeLdr (w.extractLsb' 28 8) (w.extractLsb' 26 2) (w.extractLsb' 10 16) (w.extractLsb' 2 8)
      = w := by
  obtain ⟨hop, hlow⟩ := (rowLdr_matches_iff w).1 h
  rw [encodeLdr, ← hop, ← hlow]
  simp only [BitVec.extractLsb'_append_extractLsb'_eq_extractLsb']
  exact BitVec.extractLsb'_eq_self

theorem bit_ofBit (b : Bool) : (Fmt.ofBit b).bit = b := by cases b <;> rfl

/-- A word of the row of CFG is the CFG of its last bit. -/
theorem encodeCfg_low {w : CmdWord} (h : rowCfg.matches w = true) :
    encodeCfg (Fmt.ofBit (w.getLsbD 0)) = w := by
  obtain ⟨hop, hmid⟩ := (rowCfg_matches_iff w).1 h
  have hbit : BitVec.ofBool (Fmt.ofBit (w.getLsbD 0)).bit = w.extractLsb' 0 1 := by
    rw [bit_ofBit]
    refine BitVec.eq_of_getLsbD_eq fun i hi => ?_
    obtain rfl : i = 0 := by omega
    simp
  rw [encodeCfg, ← hop, ← hmid, hbit]
  exact opcode_append_fields_append_low_one w

/-- The row of START is START's word. -/
theorem encodeStart_eq {w : CmdWord} (h : rowStart.matches w = true) : encodeStart = w := by
  obtain ⟨hop, hpay⟩ := (rowStart_matches_iff w).1 h
  rw [encodeStart, ← hop, ← hpay]
  exact opcode_append_payload w

/-- What a command word decodes to has that word (R96). -/
theorem encode_of_decodeCmd {w : CmdWord} {i : Instr} (h : decodeCmd w = .ok i) :
    encode i = .cmd w := by
  unfold decodeCmd at h
  split at h
  next hm => cases h; rw [encode, encodeLdn_ofPayload hm]
  split at h
  next hm => cases h; rw [encode, encodeLdr_fields hm]
  split at h
  next hm => cases h; rw [encode, encodeCfg_low hm]
  split at h
  next hm => cases h; rw [encode, encodeStart_eq hm]
  next => cases h

theorem encodeLdn_inj {n m : NibbleFrame} (h : encodeLdn n = encodeLdn m) : n = m :=
  payload_inj ((BitVec.append_right_inj _).1 h)

theorem encodeLdr_inj {id id' : BitVec 8} {ch ch' : BitVec 2} {t t' : BitVec 16} {h h' : BitVec 8}
    (heq : encodeLdr id ch t h = encodeLdr id' ch' t' h') :
    id = id' ∧ ch = ch' ∧ t = t' ∧ h = h' := by
  obtain ⟨heq, -⟩ := (append_eq_append_iff (a := 38)).1 heq
  obtain ⟨heq, hh⟩ := (append_eq_append_iff (a := 30)).1 heq
  obtain ⟨heq, ht⟩ := (append_eq_append_iff (a := 14)).1 heq
  obtain ⟨heq, hch⟩ := (append_eq_append_iff (a := 12)).1 heq
  obtain ⟨-, hid⟩ := (append_eq_append_iff (a := 4)).1 heq
  exact ⟨hid, hch, ht, hh⟩

theorem rowLdn_matches_encodeLdn (n : NibbleFrame) : rowLdn.matches (encodeLdn n) = true :=
  (rowLdn_matches_iff _).2 BitVec.extractLsb'_append_eq_left

theorem rowLdr_matches_encodeLdr (id : BitVec 8) (ch : BitVec 2) (t : BitVec 16) (h : BitVec 8) :
    rowLdr.matches (encodeLdr id ch t h) = true := by
  refine (rowLdr_matches_iff _).2 ⟨?_, BitVec.extractLsb'_append_eq_right⟩
  iterate 4 refine (BitVec.extractLsb'_append_eq_of_le (by decide)).trans ?_
  exact BitVec.extractLsb'_append_eq_left

theorem decodeCmd_encodeLdn (n : NibbleFrame) : decodeCmd (encodeLdn n) = .ok (.ldn n) := by
  have hm := rowLdn_matches_encodeLdn n
  rw [decodeCmd, if_pos hm, encodeLdn_inj (encodeLdn_ofPayload hm)]

theorem decodeCmd_encodeLdr (id : BitVec 8) (ch : BitVec 2) (t : BitVec 16) (h : BitVec 8) :
    decodeCmd (encodeLdr id ch t h) = .ok (.ldr id ch t h) := by
  have hm := rowLdr_matches_encodeLdr id ch t h
  have hnot : ¬ rowLdn.matches (encodeLdr id ch t h) = true := by
    rw [rowLdn_matches_iff, ((rowLdr_matches_iff _).1 hm).1]; decide
  obtain ⟨hid, hch, ht, hh⟩ := encodeLdr_inj (encodeLdr_fields hm)
  rw [decodeCmd, if_neg hnot, if_pos hm, hid, hch, ht, hh]

/-! ## Elements (R90, R91) -/

/-- The table row of an element (R90). -/
def elementRow : Element → Instr
  | .sync => .sync
  | .bit0 => .bit0
  | .bit1 => .bit1

theorem encode_elementRow (el : Element) : encode (elementRow el) = .element el.train := by
  cases el <;> rfl

theorem decodeElement_train (el : Element) : decodeElement el.train = .ok (elementRow el) := by
  cases el <;> rfl

/-- Slots that decode are the train of the row they decode to. -/
theorem train_of_decodeElement {slots : List Bool} {i : Instr} (h : decodeElement slots = .ok i) :
    ∃ el, slots = el.train ∧ i = elementRow el := by
  unfold decodeElement at h
  split at h
  next zeros =>
    split at h
    next hall =>
      have hz : ∀ k, zeros.length = k → zeros = List.replicate k false := by
        rintro k rfl
        exact List.eq_replicate_of_mem fun b hb => by simpa using List.all_eq_true.1 hall b hb
      split at h
      next hk => cases h; exact ⟨.bit0, by rw [hz 2 hk]; rfl, rfl⟩
      next hk => cases h; exact ⟨.bit1, by rw [hz 4 hk]; rfl, rfl⟩
      next hk => cases h; exact ⟨.sync, by rw [hz 8 hk]; rfl, rfl⟩
      next => cases h
    next => cases h
  next => cases h

theorem elementLegal_iff (slots : List Bool) : 
    elementLegal slots = true ↔ ∃ el, slots = Element.train el := by
  simp only [elementLegal, Bool.or_eq_true, beq_iff_eq]
  constructor
  · rintro ((h | h) | h)
    · exact ⟨.sync, h⟩
    · exact ⟨.bit0, h⟩
    · exact ⟨.bit1, h⟩
  · rintro ⟨el, rfl⟩
    cases el <;> simp [Element.train]

theorem decodeElement_ok_iff (slots : List Bool) :
    (∃ i, decodeElement slots = .ok i) ↔ elementLegal slots = true := by
  rw [elementLegal_iff]
  constructor
  · rintro ⟨i, h⟩
    obtain ⟨el, hel, -⟩ := train_of_decodeElement h
    exact ⟨el, hel⟩
  · rintro ⟨el, rfl⟩
    exact ⟨_, decodeElement_train el⟩

/-! ## Levels (R92) -/

theorem encode_levelRow (l : Level) : encode (levelRow l) = l.code := by cases l <;> rfl

theorem decodeLevel_entry (l : Level) :
    decodeLevel l.entry.1 l.entry.2.1 l.entry.2.2 = .ok (levelRow l) := by cases l <;> rfl

/-- A byte that decodes is the entry of the row it decodes to. -/
theorem entry_of_decodeLevel {f : Fmt} {ph : Phase} {v : Value} {i : Instr}
    (h : decodeLevel f ph v = .ok i) : ∃ l : Level, l.entry = (f, ph, v) ∧ i = levelRow l := by
  unfold decodeLevel at h
  split at h
  case h_1 =>
    split at h
    next hv => cases h; exact ⟨.s8High, by rw [hv]; rfl, rfl⟩
    split at h
    next hv => cases h; exact ⟨.s8Low, by rw [hv]; rfl, rfl⟩
    next => cases h
  case h_2 =>
    split at h
    next hv => cases h; exact ⟨.s8Q, by rw [hv]; rfl, rfl⟩
    next => cases h
  case h_3 =>
    split at h
    next hv => cases h; exact ⟨.u8High, by rw [hv]; rfl, rfl⟩
    split at h
    next hv => cases h; exact ⟨.u8Low, by rw [hv]; rfl, rfl⟩
    next => cases h
  case h_4 =>
    split at h
    next hv => cases h; exact ⟨.u8Q, by rw [hv]; rfl, rfl⟩
    next => cases h

theorem levelLegal_iff (f : Fmt) (ph : Phase) (v : Value) :
    levelLegal f ph v = true ↔ ∃ l : Level, l.entry = (f, ph, v) := by
  constructor
  · intro h
    cases f <;> cases ph <;> simp only [levelLegal, Bool.or_eq_true, beq_iff_eq] at h
    · exact h.elim (fun hv => ⟨.s8High, by rw [hv]; rfl⟩) fun hv => ⟨.s8Low, by rw [hv]; rfl⟩
    · exact ⟨.s8Q, by rw [h]; rfl⟩
    · exact h.elim (fun hv => ⟨.u8High, by rw [hv]; rfl⟩) fun hv => ⟨.u8Low, by rw [hv]; rfl⟩
    · exact ⟨.u8Q, by rw [h]; rfl⟩
  · rintro ⟨l, hl⟩
    cases l <;> cases hl <;> rfl

theorem decodeLevel_ok_iff (f : Fmt) (ph : Phase) (v : Value) :
    (∃ i, decodeLevel f ph v = .ok i) ↔ levelLegal f ph v = true := by
  rw [levelLegal_iff]
  constructor
  · rintro ⟨i, h⟩
    obtain ⟨l, hl, -⟩ := entry_of_decodeLevel h
    exact ⟨l, hl⟩
  · rintro ⟨l, hl⟩
    have h := decodeLevel_entry l
    rw [hl] at h
    exact ⟨_, h⟩

/-! ## The obligations -/

/-- Settles O23: for the commands, the word matches its row and the row's encoding is injective in
its operands; the others are single words. -/
theorem decodeEncode : Obligations.DecodeEncode := by
  intro i
  cases i with
  | ldn n => exact decodeCmd_encodeLdn n
  | ldr id ch t h => exact decodeCmd_encodeLdr id ch t h
  | cfg f => cases f <;> rfl
  | start => rfl
  | pull => rfl
  | sync => exact decodeElement_train .sync
  | bit0 => exact decodeElement_train .bit0
  | bit1 => exact decodeElement_train .bit1
  | s8High => exact decodeLevel_entry .s8High
  | s8Low => exact decodeLevel_entry .s8Low
  | s8Q => exact decodeLevel_entry .s8Q
  | u8High => exact decodeLevel_entry .u8High
  | u8Low => exact decodeLevel_entry .u8Low
  | u8Q => exact decodeLevel_entry .u8Q

/-- Settles O24: a word that matches a row is that row's encoding of its own fields. -/
theorem encodeDecode : Obligations.EncodeDecode := by
  intro k i h
  cases k with
  | cmd w => exact encode_of_decodeCmd h
  | strobe => cases h; rfl
  | element slots =>
    obtain ⟨el, rfl, rfl⟩ := train_of_decodeElement h
    exact encode_elementRow el
  | level f ph v =>
    obtain ⟨l, hl, rfl⟩ := entry_of_decodeLevel h
    rw [encode_levelRow, Level.code, hl]

/-- Settles O25: for each kind of code word, both sides name the same rows of its table. -/
theorem decodesExactlyLegalWords : Obligations.DecodesExactlyLegalWords := by
  intro k
  cases k with
  | cmd w => exact decodeCmd_ok_iff w
  | strobe => exact iff_of_true ⟨_, rfl⟩ rfl
  | element slots => exact decodeElement_ok_iff slots
  | level f ph v => exact decodeLevel_ok_iff f ph v

/-- Settles O27: each word evaluates to what the spec works out. -/
theorem workedEncodings : Obligations.WorkedEncodings := by
  unfold Obligations.WorkedEncodings
  decide

end Sys2Proof.Machine
end

section
/-! PROOFS. The field packer: the channel nibble (R118) and the temperature nibbles (R116). -/

namespace Sys2Proof.Machine

/-! ## The channel (R118) -/

@[simp] theorem pack_n2 (c : Params) (id : BitVec 8) (ch : BitVec 2) (t : BitVec 16) (h : BitVec 8) :
    (pack c id ch t h).n2 = c.chbase + ch.setWidth 4 := rfl

/-- Four bits hold the sum for every channel (R118). -/
theorem hw_pack_n2_toNat (id : BitVec 8) (ch : BitVec 2) (t : BitVec 16) (h : BitVec 8) :
    (pack Config.hw id ch t h).n2.toNat = 7 + ch.toNat := by
  have hch := ch.isLt
  rw [pack_n2, show Config.hw.chbase = 7#4 from rfl, BitVec.toNat_add, BitVec.toNat_setWidth,
    BitVec.toNat_ofNat]
  omega

/-- Settles O4: four bits hold the sum of 7 and a two-bit channel. -/
theorem channelNibble : Obligations.ChannelNibble := by
  refine ⟨hw_pack_n2_toNat, fun id ch t h hch => ?_, fun id t h => rfl⟩
  have := ch.isLt
  rw [hw_pack_n2_toNat]; omega

/-! ## The temperature (R116) -/

/-- Three nibbles of a temperature as hexadecimal digits, high to low. -/
def hexTriple (x : Nibble × Nibble × Nibble) : Nat :=
  256 * x.1.toNat + 16 * x.2.1.toNat + x.2.2.toNat

theorem hexTriple_pack (c : Params) (id : BitVec 8) (ch : BitVec 2) (t : BitVec 16) (h : BitVec 8) :
    256 * (pack c id ch t h).n3.toNat + 16 * (pack c id ch t h).n4.toNat
      + (pack c id ch t h).n5.toNat = hexTriple (c.tempNibbles t) := rfl

/-- The low three hexadecimal digits of a number, as R116 (a) writes them, are its low twelve
bits. -/
theorem hexTriple_digits (k : Nat) :
    hexTriple (BitVec.ofNat 4 (k / 256), BitVec.ofNat 4 (k / 16), BitVec.ofNat 4 k) = k % 4096 := by
  simp only [hexTriple, BitVec.toNat_ofNat]
  omega

/-- This hardware's slices are the low three hexadecimal digits, for every temperature (D4). -/
theorem hw_tempNibbles (t : BitVec 16) : Config.hw.tempNibbles t =
    (BitVec.ofNat 4 (t.toNat / 256), BitVec.ofNat 4 (t.toNat / 16), BitVec.ofNat 4 t.toNat) := by
  have hslice : ∀ k, t.extractLsb' k 4 = BitVec.ofNat 4 (t.toNat / 2 ^ k) := fun k => by
    rw [← BitVec.toNat_inj, BitVec.extractLsb'_toNat, Nat.shiftRight_eq_div_pow, BitVec.toNat_ofNat]
  simp only [Config.hw, hslice, Nat.reducePow, Nat.div_one]

/-- Settles O5: a reading of 0 to 2047 tenths has three hexadecimal digits, and the settled map
writes them. -/
theorem settledTemperatureNibbles : Obligations.SettledTemperatureNibbles := by
  refine ⟨fun t _ _ => hw_tempNibbles t, fun c id ch t h hc h0 h2047 => ?_⟩
  have hlt : t.toNat < 4096 := by
    have := BitVec.toInt_eq_toNat_cond t
    split at this <;> omega
  rw [hexTriple_pack, hc t h0 h2047, hexTriple_digits, Nat.mod_eq_of_lt hlt]

/-- Temperatures 4096 apart have the same slices. -/
theorem hw_tempNibbles_add_4096 (t : BitVec 16) :
    Config.hw.tempNibbles (t + 4096) = Config.hw.tempNibbles t := by
  have h4096 : (4096 : BitVec 16).toNat = 4096 := rfl
  simp only [hw_tempNibbles, Prod.mk.injEq, ← BitVec.toNat_inj, BitVec.toNat_ofNat,
    BitVec.toNat_add, h4096]
  omega

/-- Settles O6: the map slices the low twelve bits of every temperature. -/
theorem temperatureSliceOfEveryReading : Obligations.TemperatureSliceOfEveryReading := by
  refine fun id ch t h => ⟨?_, ?_⟩
  · rw [hexTriple_pack, hw_tempNibbles, hexTriple_digits]
  · rw [pack, hw_tempNibbles_add_4096, pack]

end Sys2Proof.Machine
end

section
/-! PROOFS. What each instruction does: `exec` is one effect, guarded by FAULT (R35, R214), and that
effect is the whole next state. -/

namespace Sys2Proof.Machine

/-! ## The effect of an instruction -/

/-- What an instruction does to a state without a fault. -/
def effect : Instr → State → State
  | .ldn n => loadFrame n
  | .ldr id channel temp humidity => loadFrame (pack Config.hw id channel temp humidity)
  | .cfg f => setFormat f
  | .start => restart
  | .pull => pullEffect
  | .sync => emitTrain (expand Config.hw .sync)
  | .bit0 => emitTrain (expand Config.hw .bit0)
  | .bit1 => emitTrain (expand Config.hw .bit1)
  | .s8High => driveLevel .s8High
  | .s8Low => driveLevel .s8Low
  | .s8Q => driveLevel .s8Q
  | .u8High => driveLevel .u8High
  | .u8Low => driveLevel .u8Low
  | .u8Q => driveLevel .u8Q

theorem exec_eq_whenLive (i : Instr) (s : State) : exec i s = whenLive (effect i) s := by
  cases i <;> rfl

theorem exec_live {s : State} (h : s.fault = false) (i : Instr) :
    exec i s = .next (effect i s) := by
  rw [exec_eq_whenLive, whenLive_live h]

theorem exec_fault {s : State} (h : s.fault = true) (i : Instr) : exec i s = .next (idle s) := by
  rw [exec_eq_whenLive, whenLive_fault h]

/-- The effect of the row that puts out an element. -/
theorem effect_elementRow (el : Element) : effect (elementRow el) = emitTrain el.train := by
  cases el <;> rfl

/-- The effect of the row that puts out a level. -/
theorem effect_levelRow (l : Level) : effect (levelRow l) = driveLevel l := by cases l <;> rfl

/-- A level of the table is its byte on its half of the pair (R92, R166). -/
theorem driveLevel_eq_emitLevel (l : Level) :
    driveLevel l = emitLevel l.entry.2.2 l.entry.2.1 := by cases l <;> rfl

/-! ## The commands (R110, R114, R190, R192) -/

/-- Settles O7: LDR and LDN have one effect, the load of a frame. -/
theorem ldrIsLdnAfterPack : Obligations.LdrIsLdnAfterPack := by
  intro id ch t h s
  rw [exec_eq_whenLive, exec_eq_whenLive, effect, effect]

/-- Settles O28: the effect is `loadFrame`. -/
theorem ldnLoadsNibbles : Obligations.LdnLoadsNibbles := fun _ _ hs => exec_live hs _

/-- Settles O29: the effect is `loadFrame` of the nibbles of `Pack`. -/
theorem ldrLoadsPackedReading : Obligations.LdrLoadsPackedReading :=
  fun _ _ _ _ _ hs => exec_live hs _

/-- Settles O30: the effect is `setFormat`. -/
theorem cfgSetsFormat : Obligations.CfgSetsFormat := fun _ _ hs => exec_live hs _

/-- Settles O31: the effect is `restart`. -/
theorem startZeroesCursor : Obligations.StartZeroesCursor := fun _ hs => exec_live hs _

/-! ## PULL (R186, R187) -/

/-- The cursor after a PULL, from inside the sample space (R186). -/
theorem advance_eq_ite {n : NibbleFrame} {k : Cursor} (hk : k.toNat < streamLen Config.hw n) :
    advance Config.hw n k = if k.toNat + 1 = streamLen Config.hw n then 0 else k + 1 := by
  have hL := streamLen_lt n
  rw [← BitVec.toNat_inj, advance_toNat]
  split
  next heq => rw [heq, Nat.mod_self]; rfl
  next hne =>
    have h1 : (1 : Cursor).toNat = 1 := rfl
    rw [BitVec.toNat_add, h1, Nat.mod_eq_of_lt (by omega), Nat.mod_eq_of_lt (by omega)]

theorem exec_pull_loaded {s : State} (hf : s.fault = false) (hl : s.loaded = true) :
    exec .pull s = .next (pullValue Config.hw s) := by
  rw [exec_live hf, effect, pullEffect_loaded hl]

theorem exec_pull_empty {s : State} (hf : s.fault = false) (hl : s.loaded = false) :
    exec .pull s = .next (raise .emptyPull s) := by
  rw [exec_live hf, effect, pullEffect_empty hl]

/-- Settles O32: `Sample` at the cursor is the SampleBuffer's entry there. -/
theorem pullDeliversSample : Obligations.PullDeliversSample := by
  intro s hf hl hcur
  refine ⟨_, sampleBuffer_getElem? hw_nbits hw_elemWidth_pos (by decide) s.fmt s.nib hcur, ?_⟩
  rw [exec_pull_loaded hf hl, pullValue, advance_eq_ite hcur]
  rfl

/-- Settles O33: the effect is the fault EMPTY_PULL. -/
theorem pullEmptyFaults : Obligations.PullEmptyFaults := fun _ hf hl => exec_pull_empty hf hl

/-- The level of an index drives the half that the index's phase names (R52). -/
theorem levelPhase_levelAt (c : Params) (f : Fmt) (n : NibbleFrame) (k : Nat) :
    levelPhase (levelAt c f n k) = phaseOf k := by
  rw [levelAt]
  cases phaseOf k with
  | i => cases f <;> cases slot c n (k / 2 / c.osr) <;> rfl
  | q => cases f <;> rfl

/-- Settles O37: PULL delivers the byte of the level at the cursor, on that level's half. -/
theorem pullPutsOutItsLevel : Obligations.PullPutsOutItsLevel := by
  intro s hf hl _
  refine ⟨_, _, _, exec_pull_loaded hf hl, rfl, ?_⟩
  rw [exec_live hf, effect_levelRow, driveLevel, levelPhase_levelAt]
  rfl

/-! ## The stage rows (R150 to R152, R166), and every row in a faulted state -/

/-- Settles O34: the trains are the table's. -/
theorem elementsPutOutTrains : Obligations.ElementsPutOutTrains := by
  intro s hs
  have hrow : ∀ el, exec (elementRow el) s = .next { s with out := .train el.train } := fun el => by
    rw [exec_live hs, effect_elementRow]; rfl
  exact ⟨hrow .sync, hrow .bit0, hrow .bit1⟩

/-- Settles O35: the bytes and phases are the table's. -/
theorem levelsPutOutBytes : Obligations.LevelsPutOutBytes := by
  intro s hs
  have hrow : ∀ l : Level, exec (levelRow l) s
      = .next { s with out := .level l.entry.2.2 l.entry.2.1 } := fun l => by
    rw [exec_live hs, effect_levelRow, driveLevel_eq_emitLevel]; rfl
  exact ⟨hrow .s8High, hrow .s8Low, hrow .s8Q, hrow .u8High, hrow .u8Low, hrow .u8Q⟩

/-- Settles O36: every meaning is guarded by FAULT. -/
theorem faultedInstructionIsIdle : Obligations.FaultedInstructionIsIdle :=
  fun i _ hs => exec_fault hs i

end Sys2Proof.Machine
end

section
/-! PROOFS. The step: which event a cycle is and what that event does (R11, R35), as one effect per
event; stage words (log 8); the status pins (R30). -/

namespace Sys2Proof.Machine

/-! ## The effect of an event -/

/-- What a command word does to a state without a fault (R88, R212). -/
def cmdEffect (w : CmdWord) : State → State :=
  match decodeCmd w with
  | .ok i => effect i
  | .error _ => raise .illegalCmd

theorem cmdEffect_ok {w : CmdWord} {i : Instr} (h : decodeCmd w = .ok i) :
    cmdEffect w = effect i := by
  rw [cmdEffect, h]

theorem cmdEffect_illegal {w : CmdWord} (h : cmdLegal w = false) :
    cmdEffect w = raise .illegalCmd := by
  obtain ⟨e, he⟩ := decodeCmd_of_illegal h
  rw [cmdEffect, he]

theorem runCmd_eq_whenLive (w : CmdWord) (s : State) : runCmd w s = whenLive (cmdEffect w) s := by
  rw [runCmd, cmdEffect]
  cases decodeCmd w with
  | ok i => exact exec_eq_whenLive i s
  | error e => rfl

/-- What an event does; a command and the strobe are events of a state without a fault (R35). -/
def eventEffect : Event → State → State
  | .reset => resetEvent
  | .cmd w => cmdEffect w
  | .pull => pullEffect
  | .idle => idle

section
variable {fault : Bool} {p : Pins}

theorem eventOf_reset (hr : p.rst = true) : eventOf fault p = .reset := by
  rw [eventOf, if_pos hr]

theorem eventOf_fault (hr : p.rst = false) : eventOf true p = .idle := by
  simp [eventOf, hr]

theorem eventOf_cmd (hr : p.rst = false) (hc : p.cmdValid = true) :
    eventOf false p = .cmd p.cmd := by
  simp [eventOf, hr, hc]

theorem eventOf_pull (hr : p.rst = false) (hc : p.cmdValid = false) (hp : p.pull = true) :
    eventOf false p = .pull := by
  simp [eventOf, hr, hc, hp]

theorem eventOf_low (hr : p.rst = false) (hc : p.cmdValid = false) (hp : p.pull = false) :
    eventOf fault p = .idle := by
  simp [eventOf, hr, hc, hp]

end

/-- The event of a cycle takes effect: a faulted state has no command and no strobe. -/
theorem runEvent_eventOf (p : Pins) (s : State) :
    runEvent (eventOf s.fault p) s = .next (eventEffect (eventOf s.fault p) s) := by
  cases hr : p.rst with
  | true => rw [eventOf_reset hr]; rfl
  | false =>
    cases hf : s.fault with
    | true => rw [eventOf_fault hr]; rfl
    | false =>
      cases eventOf false p with
      | reset => rfl
      | cmd w => rw [runEvent, runCmd_eq_whenLive, whenLive_live hf, eventEffect]
      | pull => exact exec_live hf .pull
      | idle => rfl

/-! ## The step, by its next input -/

theorem step_nil {s : State} (h : s.inputs = []) : step s = .next (idle s) := by
  rw [step, stepInputs, h]

/-- On a clock cycle the step answers the effect of its event. -/
theorem step_pins {s : State} {p : Pins} {l : List Cycle} (h : s.inputs = .pins p :: l) :
    step s = .next (eventEffect (eventOf s.fault p) (s.withInputs l)) := by
  have hrun := runEvent_eventOf p (s.withInputs l)
  rw [State.withInputs_fault] at hrun
  rw [step, stepInputs, h]
  exact hrun

section
variable {s : State} {p : Pins} {l : List Cycle} (hf : s.fault = false)
  (hin : s.inputs = .pins p :: l) (hr : p.rst = false)
include hf hin hr

theorem step_cmd (hc : p.cmdValid = true) : step s = .next (cmdEffect p.cmd (s.withInputs l)) := by
  rw [step_pins hin, hf, eventOf_cmd hr hc, eventEffect]

theorem step_pull (hc : p.cmdValid = false) (hp : p.pull = true) :
    step s = .next (pullEffect (s.withInputs l)) := by
  rw [step_pins hin, hf, eventOf_pull hr hc hp, eventEffect]

end

theorem step_reset {s : State} {p : Pins} {l : List Cycle} (hin : s.inputs = .pins p :: l)
    (hr : p.rst = true) : step s = .next (resetEvent (s.withInputs l)) := by
  rw [step_pins hin, eventOf_reset hr, eventEffect]

theorem step_element {s : State} {slots : List Bool} {l : List Cycle}
    (h : s.inputs = .element slots :: l) :
    step s = runStage (.element slots) (s.withInputs l) := by
  rw [step, stepInputs, h]
  rfl

theorem step_level {s : State} {f : Fmt} {ph : Phase} {v : Value} {l : List Cycle}
    (h : s.inputs = .level f ph v :: l) :
    step s = runStage (.level f ph v) (s.withInputs l) := by
  rw [step, stepInputs, h]
  rfl

theorem runStage_ok {k : Code} {i : Instr} {s : State} (hf : s.fault = false)
    (hd : decode k = .ok i) : runStage k s = exec i s := by
  rw [runStage, if_neg (by rw [hf]; decide), hd]

theorem runStage_error {k : Code} {s : State} (hf : s.fault = false)
    (hd : k.wellFormed = false) : runStage k s = .refused .notACodeWord := by
  have herr : ∀ i, decode k ≠ .ok i := fun i hi => by
    have := (decodesExactlyLegalWords k).1 ⟨i, hi⟩
    rw [hd] at this; exact absurd this (by decide)
  rw [runStage, if_neg (by rw [hf]; decide)]
  cases hk : decode k with
  | ok i => exact absurd hk (herr i)
  | error e => rfl

/-- Settles O38: the cycle's event is the command or the strobe, and an event's effect is its
instruction's. -/
theorem stepRunsDecodedInstruction : Obligations.StepRunsDecodedInstruction := by
  refine ⟨fun s l w pull i hf hin hd => ?_, fun s l w hf hin => ?_,
    fun s l slots i hf hin hd => ?_, fun s l f ph v i hf hin hd => ?_⟩
  · rw [step_cmd hf hin rfl rfl, cmdEffect_ok hd]
    exact (exec_live (s := s.withInputs l) hf i).symm
  · rw [step_pull hf hin rfl rfl rfl]
    exact (exec_live (s := s.withInputs l) hf .pull).symm
  · rw [step_element hin]; exact runStage_ok hf hd
  · rw [step_level hin]; exact runStage_ok hf hd

/-- A code word presented as the next input is the instruction it decodes to. -/
theorem step_present {s : State} {k : Code} {i : Instr} (hf : s.fault = false)
    (hd : decode k = .ok i) : step (present k s) = exec i s := by
  obtain ⟨hcmd, hpull, helement, hlevel⟩ := stepRunsDecodedInstruction
  cases k with
  | cmd w => exact hcmd (present (.cmd w) s) s.inputs w false i hf rfl hd
  | strobe => cases hd; exact hpull (present .strobe s) s.inputs 0 hf rfl
  | element slots => exact helement (present (.element slots) s) s.inputs slots i hf rfl hd
  | level f ph v => exact hlevel (present (.level f ph v) s) s.inputs f ph v i hf rfl hd

/-- Settles O39: the placed word is presented as the code word that the host's numbering reads. -/
theorem stepRunsPlacedWord : Obligations.StepRunsPlacedWord := by
  intro s nbits w i hf hw
  rw [decodeTableWord] at hw
  split at hw
  next =>
    refine step_present hf ?_
    cases hd : decode (tableCode nbits w) with
    | ok j => rw [hd] at hw; cases hw; rfl
    | error e => rw [hd] at hw; cases hw
  next => cases hw

/-- Settles O40: the decoder rejects the word, and the event's effect is the fault. -/
theorem illegalWordFaults : Obligations.IllegalWordFaults := by
  intro s l w pull hf hin hw
  rw [step_cmd hf hin rfl rfl, cmdEffect_illegal hw]
  rfl

/-- Settles O41: the decoder rejects the bits. -/
theorem stageWordsThatStop : Obligations.StageWordsThatStop := by
  refine ⟨fun s l slots hf hin hw => ?_, fun s l f ph v hf hin hw => ?_⟩
  · rw [step_element hin]; exact runStage_error hf hw
  · rw [step_level hin]; exact runStage_error hf hw

/-! ## Reset, Idle and the status pins -/

theorem status_resetEvent (s : State) : status (resetEvent s) = 0 := by
  simp [status, causeCode]

/-- Settles O42: the event is Reset, whatever the other pins and the state. -/
theorem resetLeaves : Obligations.ResetLeaves := by
  refine ⟨fun s l p hin hr => ?_, rfl, rfl, rfl, rfl, rfl, rfl⟩
  rw [step_reset hin hr]
  exact ⟨_, rfl, rfl, rfl, rfl, rfl, rfl, rfl, rfl, status_resetEvent _⟩

/-- Settles O43: the four pins are the concatenation of the code and the two flags. -/
theorem statusPins : Obligations.StatusPins := by
  intro s
  have hcode : (status s).extractLsb' 2 2 = causeCode s.cause := by
    refine (BitVec.extractLsb'_append_eq_of_le (by decide)).trans ?_
    exact BitVec.extractLsb'_append_eq_left
  refine ⟨?_, ?_, ?_, ?_⟩
  · rw [status, BitVec.getLsbD_append]; simp
  · rw [status, BitVec.getLsbD_append, BitVec.getLsbD_append]; simp
  · rw [hcode]
    match s.cause with
    | none => rfl
    | some .emptyPull => rfl
    | some .illegalCmd => rfl
  · rw [hcode]
    match s.cause with
    | none => decide
    | some .emptyPull => decide
    | some .illegalCmd => decide

/-- Settles O44: the event is Idle. -/
theorem idleChangesNothing : Obligations.IdleChangesNothing := by
  refine ⟨fun s l p hin hr h => ?_, fun s hin => step_nil hin⟩
  have hidle : eventOf s.fault p = .idle := by
    obtain hf | ⟨hc, hp⟩ := h
    · rw [hf]; exact eventOf_fault hr
    · exact eventOf_low hr hc hp
  rw [step_pins hin, hidle]
  rfl

/-! ## What every event leaves, and what it delivers -/

@[simp] theorem pullEffect_inputs (s : State) : (pullEffect s).inputs = s.inputs := by
  cases hl : s.loaded
  · rw [pullEffect_empty hl]; rfl
  · rw [pullEffect_loaded hl]; rfl

/-- A command word does one of five things. -/
theorem cmdEffect_cases (w : CmdWord) :
    (∃ n, cmdEffect w = loadFrame n) ∨
      (∃ f, decodeCmd w = .ok (.cfg f) ∧ cmdEffect w = setFormat f) ∨
      cmdEffect w = restart ∨ (∃ e, decodeCmd w = .error e) ∧ cmdEffect w = raise .illegalCmd := by
  cases hd : decodeCmd w with
  | error e => exact .inr (.inr (.inr ⟨⟨e, rfl⟩, by rw [cmdEffect, hd]⟩))
  | ok i =>
    rw [cmdEffect_ok hd]
    obtain ⟨n, rfl⟩ | ⟨id, ch, t, h, rfl⟩ | ⟨f, rfl⟩ | rfl := decodeCmd_ok hd
    · exact .inl ⟨n, rfl⟩
    · exact .inl ⟨_, rfl⟩
    · exact .inr (.inl ⟨f, rfl, rfl⟩)
    · exact .inr (.inr (.inl rfl))

@[simp] theorem cmdEffect_inputs (w : CmdWord) (s : State) : (cmdEffect w s).inputs = s.inputs := by
  obtain ⟨n, h⟩ | ⟨f, -, h⟩ | h | ⟨-, h⟩ := cmdEffect_cases w <;> rw [h] <;> rfl

/-- A command word delivers nothing (R110, R114, R190, R192, R213). -/
@[simp] theorem cmdEffect_out (w : CmdWord) (s : State) : (cmdEffect w s).out = .quiet := by
  obtain ⟨n, h⟩ | ⟨f, -, h⟩ | h | ⟨-, h⟩ := cmdEffect_cases w <;> rw [h] <;> rfl

theorem eventEffect_inputs (e : Event) (s : State) : (eventEffect e s).inputs = s.inputs := by
  cases e with
  | reset => rfl
  | cmd w => exact cmdEffect_inputs w s
  | pull => exact pullEffect_inputs s
  | idle => rfl

theorem outValid_of_quiet {s : State} (h : s.out = .quiet) : outValid s = false := by
  rw [outValid, delivered, h]; rfl

theorem outValid_pullValue (s : State) : outValid (pullValue Config.hw s) = true := rfl

/-- An event delivers a value exactly if it is a Pull on a loaded frame (R35, R186). -/
theorem outValid_eventEffect_iff (e : Event) (s : State) :
    outValid (eventEffect e s) = true ↔ e = .pull ∧ s.loaded = true := by
  cases e with
  | reset => rw [outValid_of_quiet rfl]; simp
  | cmd w => rw [eventEffect, outValid_of_quiet (cmdEffect_out w s)]; simp
  | idle => rw [outValid_of_quiet rfl]; simp
  | pull =>
    cases hl : s.loaded with
    | true => rw [eventEffect, pullEffect_loaded hl, outValid_pullValue]; simp
    | false => rw [eventEffect, pullEffect_empty hl, outValid_of_quiet rfl]; simp

/-- Settles O45: a cycle's event always takes effect, and only a Pull on a loaded frame delivers. -/
theorem stepTotalOnPins : Obligations.StepTotalOnPins := by
  intro s hpins
  cases hin : s.inputs with
  | nil => exact ⟨_, step_nil hin, hin, by rw [outValid_of_quiet rfl]; simp⟩
  | cons c l =>
    obtain ⟨p, rfl⟩ := hpins c (by rw [hin]; exact List.mem_cons_self)
    refine ⟨_, step_pins hin, eventEffect_inputs _ _, ?_⟩
    rw [outValid_eventEffect_iff]
    simp

/-! ## How the cursor moves (R26) -/

/-- A legal command word other than CFG zeroes the cursor. -/
theorem cmdEffect_cur_of_ok {w : CmdWord} {i : Instr} (hd : decodeCmd w = .ok i)
    (hcfg : ∀ f, i ≠ .cfg f) (s : State) : (cmdEffect w s).cur = 0 := by
  obtain ⟨n, h⟩ | ⟨f, hf, -⟩ | h | ⟨⟨e, he⟩, -⟩ := cmdEffect_cases w
  · rw [h]; rfl
  · rw [hd] at hf; cases hf; exact absurd rfl (hcfg f)
  · rw [h]; rfl
  · rw [hd] at he; cases he

/-- An input that is no clock cycle leaves the cursor (log 1, log 8). -/
theorem StepTo.cur_of_not_pins {s t : State} (h : StepTo s t)
    (hn : ∀ p, s.inputs.head? ≠ some (.pins p)) : t.cur = s.cur := by
  cases h with
  | idle => rfl
  | train => rfl
  | level => rfl
  | reset p hh => exact absurd hh (hn p)
  | ldn p _ hc | ldr p _ _ _ _ hc | cfg p _ hc | start p hc | illegal p _ hc =>
    exact absurd hc.1 (hn p)
  | deliver p hp | empty p hp => exact absurd hp.1 (hn p)

/-- Settles O50: on a clock cycle the event's effect says what becomes of the cursor. -/
theorem cursorMoves : Obligations.CursorMoves := by
  refine ⟨fun s l p hin => ⟨_, step_pins hin, ?_⟩,
    fun s t h hn => (step_cases h).cur_of_not_pins hn,
    fun s hf i => ⟨_, exec_fault hf i, rfl⟩, fun n => ⟨streamLen_pos n, streamLen_lt n⟩⟩
  generalize eventOf s.fault p = e
  refine ⟨?_, ?_, ?_, ?_, ?_, ?_, ?_⟩
  · rintro rfl; rfl
  · rintro w i rfl hd hcfg
    exact cmdEffect_cur_of_ok hd hcfg _
  · rintro w f rfl hd
    rw [eventEffect, cmdEffect_ok hd]; rfl
  · rintro w rfl hw
    rw [eventEffect, cmdEffect_illegal hw]; rfl
  · rintro rfl hl
    refine ⟨(outValid_eventEffect_iff _ _).2 ⟨rfl, hl⟩, ?_⟩
    rw [eventEffect, pullEffect_loaded (by exact hl)]
    exact advance_toNat s.nib s.cur
  · rintro rfl hl
    rw [eventEffect, pullEffect_empty (by exact hl)]; rfl
  · rintro rfl; rfl

end Sys2Proof.Machine
end

section
/-! PROOFS. What every step keeps: the state invariant (R27, R30, R37), FAULT and LOADED (R28,
R215), and NIB but for the loads and Reset (R50); each by the cases of `StepTo`. -/

namespace Sys2Proof.Machine

/-! ## The state invariant -/

section
variable {s : State} (hs : StateInv s)
include hs

/-- The invariant speaks of five fields. -/
theorem stateInv_of_same_fields {t : State} (hnib : t.nib = s.nib) (hcur : t.cur = s.cur)
    (hloaded : t.loaded = s.loaded) (hfault : t.fault = s.fault) (hcause : t.cause = s.cause) :
    StateInv t where
  fault_cause := by rw [hfault, hcause]; exact hs.fault_cause
  cur_lt := by rw [hnib, hcur, hloaded]; exact hs.cur_lt
  cur_zero := by rw [hcur, hloaded]; exact hs.cur_zero

theorem stateInv_rest : StateInv (rest s) := stateInv_of_same_fields hs rfl rfl rfl rfl rfl

theorem stateInv_idle : StateInv (idle s) := stateInv_of_same_fields hs rfl rfl rfl rfl rfl

theorem stateInv_setFormat (f : Fmt) : StateInv (setFormat f s) :=
  stateInv_of_same_fields hs rfl rfl rfl rfl rfl

theorem stateInv_emitTrain (slots : List Bool) : StateInv (emitTrain slots s) :=
  stateInv_of_same_fields hs rfl rfl rfl rfl rfl

theorem stateInv_emitLevel (v : Value) (ph : Phase) : StateInv (emitLevel v ph s) :=
  stateInv_of_same_fields hs rfl rfl rfl rfl rfl

/-- A cursor of 0 is inside every sample space. -/
theorem stateInv_loadFrame (n : NibbleFrame) : StateInv (loadFrame n s) where
  fault_cause := hs.fault_cause
  cur_lt _ := streamLen_pos n
  cur_zero _ := rfl

theorem stateInv_restart : StateInv (restart s) where
  fault_cause := hs.fault_cause
  cur_lt _ := streamLen_pos s.nib
  cur_zero _ := rfl

theorem stateInv_raise (c : Cause) : StateInv (raise c s) where
  fault_cause := rfl
  cur_lt := hs.cur_lt
  cur_zero := hs.cur_zero

theorem stateInv_pullValue (hl : s.loaded = true) : StateInv (pullValue Config.hw s) where
  fault_cause := hs.fault_cause
  cur_lt _ := advance_lt s.nib s.cur
  cur_zero h := absurd (hl.symm.trans h) (by decide)

end

theorem stateInv_resetEvent (s : State) : StateInv (resetEvent s) where
  fault_cause := rfl
  cur_lt h := by cases h
  cur_zero _ := rfl

/-- Settles O46: each thing a step can do keeps the invariant. -/
theorem stepKeepsInvariant : Obligations.StepKeepsInvariant := by
  intro s t hs h
  have hr := stateInv_rest hs
  cases step_cases h with
  | idle => exact stateInv_idle hr
  | reset => exact stateInv_resetEvent _
  | ldn p n | ldr => exact stateInv_loadFrame hr _
  | cfg p f => exact stateInv_setFormat hr f
  | start => exact stateInv_restart hr
  | illegal | empty => exact stateInv_raise hr _
  | deliver p hp hl => exact stateInv_pullValue hr hl
  | train slots => exact stateInv_emitTrain hr slots
  | level v ph => exact stateInv_emitLevel hr v ph

/-- Settles O47: nothing is loaded after reset, and there is no fault. -/
theorem resetHasInvariant : Obligations.ResetHasInvariant where
  fault_cause := rfl
  cur_lt h := by cases h
  cur_zero _ := rfl

/-! ## FAULT, CAUSE and LOADED -/

theorem CmdCycleAt.fault_eq_false {s : State} {p : Pins} (h : CmdCycleAt s p) :
    s.fault = false := by
  obtain ⟨-, -, hf, -⟩ := h
  exact hf

theorem PullCycleAt.fault_eq_false {s : State} {p : Pins} (h : PullCycleAt s p) :
    s.fault = false := by
  obtain ⟨-, -, hf, -⟩ := h
  exact hf

/-- While FAULT = 1 a cycle without `rst` is Idle (R35, R214). -/
theorem StepTo.eq_idle_of_fault {s t : State} (h : StepTo s t) (hf : s.fault = true)
    (hr : ∀ p, s.inputs.head? = some (.pins p) → p.rst = false) :
    t = Machine.idle (Machine.rest s) := by
  have hlive : ∀ {P : Prop}, s.fault = false → P :=
    fun hf' => absurd (hf.symm.trans hf') (by decide)
  cases h with
  | idle => rfl
  | reset p hh h1 => exact absurd ((hr p hh).symm.trans h1) (by decide)
  | ldn p _ hc | ldr p _ _ _ _ hc | cfg p _ hc | start p hc | illegal p _ hc =>
    exact hlive hc.fault_eq_false
  | deliver p hp | empty p hp => exact hlive hp.fault_eq_false
  | train _ _ hf' | level _ _ _ hf' => exact hlive hf'

/-- Nothing but a Reset unloads a frame. -/
theorem StepTo.loaded_of_loaded {s t : State} (h : StepTo s t) (hl : s.loaded = true)
    (hr : ∀ p, s.inputs.head? = some (.pins p) → p.rst = false) : t.loaded = true := by
  cases h with
  | reset p hh h1 => exact absurd ((hr p hh).symm.trans h1) (by decide)
  | ldn | ldr => rfl
  | idle | cfg | start | illegal | deliver | empty | train | level => exact hl

/-- Settles O48: in a faulted state the step is Idle, and only a Reset clears LOADED. -/
theorem onlyResetClears : Obligations.OnlyResetClears := by
  intro s t h hr
  refine ⟨fun hf => ?_, fun hl => (step_cases h).loaded_of_loaded hl hr⟩
  rw [(step_cases h).eq_idle_of_fault hf hr]
  exact ⟨hf, rfl⟩

/-! ## NIB -/

/-- Settles O49: of all that a step can do only a Reset and a taken load write NIB, and both zero
the cursor. -/
theorem nibChangesOnlyByLoadOrReset : Obligations.NibChangesOnlyByLoadOrReset := by
  intro s t h hnib
  cases step_cases h with
  | reset p hh hr => exact ⟨rfl, p, hh, .inl hr⟩
  | ldn p n hc hd =>
    obtain ⟨hh, hr, hf, hv⟩ := hc
    exact ⟨rfl, p, hh, .inr ⟨hr, hf, hv, .inl ⟨n, hd, rfl⟩⟩⟩
  | ldr p id ch tt hum hc hd =>
    obtain ⟨hh, hr, hf, hv⟩ := hc
    exact ⟨rfl, p, hh, .inr ⟨hr, hf, hv, .inr ⟨id, ch, tt, hum, hd, rfl⟩⟩⟩
  | idle | cfg | start | illegal | deliver | empty | train | level => exact absurd rfl hnib

end Sys2Proof.Machine
end

section
/-! PROOFS. Runs: what a run is made of, FILL (R196), circular replay (R198), a load and what
follows it (R62, R112), and the runs of a faulted machine (R188, R214). -/

namespace Sys2Proof.Machine

/-! ## A run, step by step -/

theorem runFor_succ_next {s t : State} (h : step s = .next t) (k : Nat) :
    runFor (k + 1) s = (runFor k t).map fun x => ((delivered t).toList ++ x.1, x.2) := by
  rw [runFor, h]

theorem runFor_succ_refused {s : State} {r : Refusal} (h : step s = .refused r) (k : Nat) :
    runFor (k + 1) s = none := by
  rw [runFor, h]

/-- A step that puts out nothing adds nothing to what a run delivers. -/
theorem runFor_succ_quiet {s t : State} (h : step s = .next t) (ho : t.out = .quiet) (k : Nat) :
    runFor (k + 1) s = runFor k t := by
  have hd : delivered t = none := by rw [delivered, ho]
  rw [runFor_succ_next h, hd]
  exact Option.map_id'

/-! ## A faulted machine (R188, R214) -/

theorem withInputs_inputs (s : State) : s.withInputs s.inputs = s := rfl

/-- In a faulted state the step on a cycle without `rst`, or with no input left, is Idle. -/
theorem step_of_fault {s : State} (hf : s.fault = true) (hr : ∀ c ∈ s.inputs.head?, NoReset c) :
    step s = .next (idle (rest s)) := by
  cases hin : s.inputs with
  | nil => rw [step_nil hin, rest, hin, List.tail_nil, ← hin, withInputs_inputs]
  | cons c l =>
    obtain ⟨p, rfl, hp⟩ := hr c (by rw [hin]; rfl)
    rw [step_pins hin, hf, eventOf_fault hp, rest, hin]
    rfl

/-- Over cycles without `rst` a faulted machine delivers nothing and keeps every item. -/
theorem runFor_of_fault (k : Nat) {s : State} (hf : s.fault = true)
    (hr : ∀ c ∈ s.inputs.take k, NoReset c) :
    ∃ l o, runFor k s = some ([], (s.withInputs l).withOut o) := by
  induction k generalizing s with
  | zero => exact ⟨s.inputs, s.out, rfl⟩
  | succ k ih =>
    have hhead : ∀ c ∈ s.inputs.head?, NoReset c := fun c hc => hr c <| by
      obtain ⟨l, hl⟩ := List.head?_eq_some_iff.1 hc
      rw [hl, List.take_succ_cons]; exact List.mem_cons_self
    have htail : ∀ c ∈ s.inputs.tail.take k, NoReset c := fun c hc => hr c <| by
      cases hin : s.inputs with
      | nil => rw [hin] at hc; simp at hc
      | cons d l => rw [hin] at hc; exact List.mem_cons_of_mem d hc
    rw [runFor_succ_quiet (step_of_fault hf hhead) rfl]
    exact ih (s := idle (rest s)) hf htail

/-- Settles O51: every step of the run is Idle, by induction over its length. -/
theorem faultedRunQuiescent : Obligations.FaultedRunQuiescent := by
  intro k s hf hr
  obtain ⟨l, o, hrun⟩ := runFor_of_fault k hf fun c hc => hr c (List.mem_of_mem_take hc)
  exact ⟨_, hrun, rfl, rfl, rfl, rfl, hf, rfl, rfl⟩

/-! ## FILL (R196) -/

/-- `k` entries of the sample space with their phases, from index `c` on, modulo its length. -/
def streamFrom (f : Fmt) (n : NibbleFrame) (c k : Nat) : List (Value × Phase) :=
  (List.range k).map fun j =>
    (sample Config.hw f n ((c + j) % streamLen Config.hw n),
      phaseOf ((c + j) % streamLen Config.hw n))

/-- The first entry, and those from the next index on. -/
theorem streamFrom_succ (f : Fmt) (n : NibbleFrame) {c : Nat} (hc : c < streamLen Config.hw n)
    (k : Nat) : streamFrom f n c (k + 1)
      = (sample Config.hw f n c, phaseOf c)
        :: streamFrom f n ((c + 1) % streamLen Config.hw n) k := by
  have hidx : ∀ j, ((c + 1) % streamLen Config.hw n + j) % streamLen Config.hw n
      = (c + (j + 1)) % streamLen Config.hw n := fun j => by
    rw [Nat.mod_add_mod, Nat.add_assoc, Nat.add_comm 1]
  simp only [streamFrom, List.range_succ_eq_map, List.map_cons, List.map_map, Function.comp_def,
    hidx, Nat.add_zero, Nat.mod_eq_of_lt hc, Nat.succ_eq_add_one]

/-- `k` pulls on a loaded frame deliver `k` entries from the cursor on and move it `k` further. -/
theorem runFor_pulls (k : Nat) {s : State} {l : List Cycle} (hf : s.fault = false)
    (hl : s.loaded = true) (hcur : s.cur.toNat < streamLen Config.hw s.nib)
    (hin : s.inputs = List.replicate k pullCycle ++ l) :
    ∃ c o, runFor k s = some (streamFrom s.fmt s.nib s.cur.toNat k,
        ((s.withInputs l).withCur c).withOut o) ∧
      c.toNat = (s.cur.toNat + k) % streamLen Config.hw s.nib := by
  induction k generalizing s with
  | zero =>
    refine ⟨s.cur, s.out, ?_, (Nat.mod_eq_of_lt hcur).symm⟩
    rw [List.replicate_zero, List.nil_append] at hin
    rw [← hin]; rfl
  | succ k ih =>
    rw [List.replicate_succ, List.cons_append] at hin
    have hstep := step_pull hf hin rfl rfl rfl
    rw [pullEffect_loaded (by exact hl)] at hstep
    obtain ⟨c, o, hrun, hc⟩ := ih
      (s := pullValue Config.hw (s.withInputs (List.replicate k pullCycle ++ l))) hf hl
      (advance_lt s.nib s.cur) rfl
    refine ⟨c, o, ?_, ?_⟩
    · rw [runFor_succ_next hstep, hrun, streamFrom_succ s.fmt s.nib hcur,
        ← advance_toNat s.nib s.cur]
      rfl
    · have hadv := advance_toNat s.nib s.cur
      rw [hc]
      change ((advance Config.hw s.nib s.cur).toNat + k) % streamLen Config.hw s.nib = _
      rw [hadv, Nat.mod_add_mod, Nat.add_assoc, Nat.add_comm 1]

/-- Settles O54: each pull delivers the entry under the cursor and moves it one further, by
induction over the pulls. -/
theorem fillDelivers : Obligations.FillDelivers := by
  intro k s l hf hl hcur hin
  obtain ⟨c, o, hrun, hc⟩ := runFor_pulls k hf hl hcur hin
  exact ⟨_, hrun, hc, rfl, rfl, rfl, hl, hf, rfl⟩

theorem noReset_pullCycle : NoReset pullCycle := ⟨_, rfl, rfl⟩

/-- Settles O55: the first pull faults, and the faulted machine is quiescent. -/
theorem fillEmptyFaults : Obligations.FillEmptyFaults := by
  intro k s l hf hl hin
  cases k with
  | zero => exact ⟨s, rfl, rfl, rfl, rfl, hl, fun _ => rfl, fun h => absurd h (by decide)⟩
  | succ k =>
    rw [List.replicate_succ, List.cons_append] at hin
    have hstep := step_pull hf hin rfl rfl rfl
    rw [pullEffect_empty (by exact hl)] at hstep
    obtain ⟨l', o, hrun⟩ := runFor_of_fault k
      (s := raise .emptyPull (s.withInputs (List.replicate k pullCycle ++ l))) rfl
      fun c hc => by
        rw [raise_inputs, State.withInputs_inputs, List.take_left' List.length_replicate] at hc
        rw [List.eq_of_mem_replicate hc]; exact noReset_pullCycle
    rw [← runFor_succ_quiet hstep rfl] at hrun
    exact ⟨_, hrun, rfl, rfl, rfl, hl, nofun, fun _ => ⟨rfl, rfl⟩⟩

/-! ## Circular replay (R198) -/

/-- Reading `k` periods of a periodic list. -/
theorem map_range_mul_mod {α : Type} (g : Nat → α) (d k : Nat) :
    (List.range (k * d)).map (fun j => g (j % d))
      = (List.replicate k ((List.range d).map g)).flatten := by
  induction k with
  | zero => simp
  | succ k ih =>
    have hperiod : ∀ j ∈ List.range d, g ((k * d + j) % d) = g j := fun j hj => by
      rw [Nat.mul_add_mod', Nat.mod_eq_of_lt (List.mem_range.1 hj)]
    rw [Nat.succ_mul, List.range_add, List.map_append, ih, List.map_map, List.replicate_succ',
      List.flatten_append, List.flatten_singleton]
    exact congrArg _ (List.map_congr_left hperiod)

/-- Settles O56: the pulls deliver the sample space `k` times, and that is the SampleBuffer. -/
theorem circularReplay : Obligations.CircularReplay := by
  intro k s hf hl h0 hin
  have hcur : s.cur.toNat = 0 := by rw [h0]; rfl
  obtain ⟨c, o, hrun, hc⟩ := runFor_pulls (k * streamLen Config.hw s.nib) hf hl
    (by rw [hcur]; exact streamLen_pos s.nib) (l := []) (by rw [hin, List.append_nil])
  rw [hcur, Nat.zero_add, Nat.mul_mod_left] at hc
  refine ⟨_, _, hrun, BitVec.eq_of_toNat_eq hc, ?_⟩
  rw [hcur, hw_sampleBuffer_eq_map, ← map_range_mul_mod, streamFrom, List.map_map]
  simp only [Function.comp_def, Nat.zero_add]

/-! ## A load and what follows it (R62, R112) -/

/-- Settles O58: the load zeroes the cursor, and the pulls after it read the new frame. -/
theorem loadSeenByNextPull : Obligations.LoadSeenByNextPull := by
  intro k s w pull n l hf hd hin
  have hload : cmdEffect w = loadFrame n := by
    obtain hldn | ⟨id, ch, tt, h, hldr, rfl⟩ := hd
    · exact cmdEffect_ok hldn
    · exact cmdEffect_ok hldr
  have hstep := step_cmd hf hin rfl rfl
  rw [hload] at hstep
  obtain ⟨c, o, hrun, hc⟩ := runFor_pulls k
    (s := loadFrame n (s.withInputs (List.replicate k pullCycle ++ l))) hf rfl (streamLen_pos n) rfl
  have hstart : (loadFrame n (s.withInputs (List.replicate k pullCycle ++ l))).cur.toNat = 0 := rfl
  rw [hstart, ← runFor_succ_quiet hstep rfl, streamFrom] at hrun
  rw [hstart] at hc
  simp only [Nat.zero_add] at hrun hc
  exact ⟨_, hrun, rfl, hc, rfl, rfl, hw_sample_zero s.fmt n⟩

end Sys2Proof.Machine
end

section
/-! PROOFS. What can not be observed: the content of NIB while nothing is loaded, and so the past
before a Reset (R23, R65, U7); and idle cycles (R59, R194). -/

namespace Sys2Proof.Machine

/-! ## Two states that can not be told apart -/

/-- Two states that agree on all but the count of free values and the NIB of a state with nothing
loaded. Their counts differ as `e` and `d` do, which every step keeps; with `d = e` they are
equal. -/
structure Alike (d e : Nat) (s t : State) : Prop where
  cur : s.cur = t.cur
  fmt : s.fmt = t.fmt
  loaded : s.loaded = t.loaded
  fault : s.fault = t.fault
  cause : s.cause = t.cause
  inputs : s.inputs = t.inputs
  out : s.out = t.out
  draws : s.draws + d = t.draws + e
  nib : s.loaded = true → s.nib = t.nib

/-- Two outcomes that can not be told apart. -/
inductive SameOutcome (d e : Nat) : Result → Result → Prop
  | next {s t : State} (h : Alike d e s t) : SameOutcome d e (.next s) (.next t)
  | refused (r : Refusal) : SameOutcome d e (.refused r) (.refused r)

theorem Alike.status_eq {d e : Nat} {s t : State} (h : Alike d e s t) : status s = status t := by
  rw [status, status, h.cause, h.fault, h.loaded]

theorem Alike.delivered_eq {d e : Nat} {s t : State} (h : Alike d e s t) :
    delivered s = delivered t := by
  rw [delivered, delivered, h.out]

/-- States alike with one count differ in NIB at most. -/
theorem Alike.sameButNib {s t : State} (h : Alike 0 0 s t) : SameButNib s t :=
  State.ext_fields rfl h.cur.symm h.fmt.symm h.loaded.symm h.fault.symm h.cause.symm h.inputs.symm
    h.out.symm h.draws.symm

/-- With nothing loaded, states that differ in NIB at most are alike. -/
theorem alike_of_sameButNib {s t : State} (hl : s.loaded = false) (h : SameButNib s t) :
    Alike 0 0 s t := by
  unfold SameButNib at h
  rw [h]
  exact ⟨rfl, rfl, rfl, rfl, rfl, rfl, rfl, rfl, fun h1 => absurd (hl.symm.trans h1) (by decide)⟩

/-! ## Every effect keeps likeness -/

section
variable {d e : Nat} {s t : State} (h : Alike d e s t)
include h

theorem Alike.withInputs (l : List Cycle) : Alike d e (s.withInputs l) (t.withInputs l) :=
  { h with inputs := rfl }

theorem Alike.idle : Alike d e (Machine.idle s) (Machine.idle t) := { h with out := rfl }

theorem Alike.raise (c : Cause) : Alike d e (Machine.raise c s) (Machine.raise c t) :=
  { h with fault := rfl, cause := rfl, out := rfl }

theorem Alike.loadFrame (n : NibbleFrame) :
    Alike d e (Machine.loadFrame n s) (Machine.loadFrame n t) :=
  { h with cur := rfl, loaded := rfl, out := rfl, nib := fun _ => rfl }

theorem Alike.restart : Alike d e (Machine.restart s) (Machine.restart t) :=
  { h with cur := rfl, out := rfl }

theorem Alike.setFormat (f : Fmt) : Alike d e (Machine.setFormat f s) (Machine.setFormat f t) :=
  { h with fmt := rfl, out := rfl }

theorem Alike.emitTrain (l : List Bool) :
    Alike d e (Machine.emitTrain l s) (Machine.emitTrain l t) :=
  { h with out := rfl }

theorem Alike.driveLevel (l : Level) :
    Alike d e (Machine.driveLevel l s) (Machine.driveLevel l t) :=
  { h with out := rfl }

/-- After a Reset the two free values may differ, but nothing is loaded. -/
theorem Alike.resetEvent : Alike d e (Machine.resetEvent s) (Machine.resetEvent t) :=
  { cur := rfl, fmt := rfl, loaded := rfl, fault := rfl, cause := rfl, out := rfl
    inputs := h.inputs
    draws := by have := h.draws; simp only [resetEvent_draws]; omega
    nib := nofun }

/-- A Pull reads NIB only if a frame is loaded, and then the two agree on it (R187). -/
theorem Alike.pullEffect : Alike d e (Machine.pullEffect s) (Machine.pullEffect t) := by
  cases hl : s.loaded with
  | false => rw [pullEffect_empty hl, pullEffect_empty (h.loaded ▸ hl)]; exact h.raise _
  | true =>
    rw [pullEffect_loaded hl, pullEffect_loaded (h.loaded ▸ hl), pullValue, pullValue,
      h.nib hl, h.fmt, h.cur]
    exact { h with cur := rfl, out := rfl }

theorem Alike.effect (i : Instr) : Alike d e (Machine.effect i s) (Machine.effect i t) := by
  cases i with
  | ldn | ldr => exact h.loadFrame _
  | cfg => exact h.setFormat _
  | start => exact h.restart
  | pull => exact h.pullEffect
  | sync | bit0 | bit1 => exact h.emitTrain _
  | s8High | s8Low | s8Q | u8High | u8Low | u8Q => exact h.driveLevel _

theorem Alike.cmdEffect (w : CmdWord) :
    Alike d e (Machine.cmdEffect w s) (Machine.cmdEffect w t) := by
  cases hd : decodeCmd w with
  | ok i => rw [cmdEffect_ok hd]; exact h.effect i
  | error r => rw [Machine.cmdEffect, hd]; exact h.raise _

theorem Alike.eventEffect (ev : Event) :
    Alike d e (Machine.eventEffect ev s) (Machine.eventEffect ev t) := by
  cases ev with
  | reset => exact h.resetEvent
  | cmd w => exact h.cmdEffect w
  | pull => exact h.pullEffect
  | idle => exact h.idle

theorem Alike.runStage (k : Code) : SameOutcome d e (runStage k s) (runStage k t) := by
  cases hf : s.fault with
  | true =>
    rw [Machine.runStage, Machine.runStage, if_pos hf, if_pos (h.fault ▸ hf)]
    exact .next h.idle
  | false =>
    have hft : t.fault = false := h.fault ▸ hf
    cases hd : decode k with
    | ok i =>
      rw [runStage_ok hf hd, runStage_ok hft hd, exec_live hf, exec_live hft]
      exact .next (h.effect i)
    | error r =>
      rw [Machine.runStage, Machine.runStage, if_neg (by rw [hf]; decide),
        if_neg (by rw [hft]; decide), hd]
      exact .refused _

/-- A step keeps likeness: the two see the same input, and NIB is read only where they agree on
it. -/
theorem Alike.step : SameOutcome d e (step s) (step t) := by
  cases hin : s.inputs with
  | nil => rw [step_nil hin, step_nil (h.inputs ▸ hin)]; exact .next h.idle
  | cons c l =>
    have hint : t.inputs = c :: l := h.inputs ▸ hin
    cases c with
    | pins p =>
      rw [step_pins hin, step_pins hint, h.fault]
      exact .next ((h.withInputs l).eventEffect _)
    | element slots => rw [step_element hin, step_element hint]; exact (h.withInputs l).runStage _
    | level f ph v => rw [step_level hin, step_level hint]; exact (h.withInputs l).runStage _

end

/-- Runs from states that are alike deliver the same, and end alike. -/
theorem Alike.runFor {d e : Nat} (k : Nat) {s t : State} (h : Alike d e s t) :
    (runFor k s = none ∧ runFor k t = none) ∨
      ∃ vs u v, runFor k s = some (vs, u) ∧ runFor k t = some (vs, v) ∧ Alike d e u v := by
  induction k generalizing s t with
  | zero => exact .inr ⟨[], s, t, rfl, rfl, h⟩
  | succ k ih =>
    have hstep := h.step
    generalize hs : Machine.step s = a at hstep
    generalize ht : Machine.step t = b at hstep
    cases hstep with
    | refused r => exact .inl ⟨runFor_succ_refused hs k, runFor_succ_refused ht k⟩
    | next h' =>
      rw [runFor_succ_next hs, runFor_succ_next ht, h'.delivered_eq]
      obtain ⟨hu, hv⟩ | ⟨vs, u, v, hu, hv, huv⟩ := ih h'
      · exact .inl ⟨by rw [hu]; rfl, by rw [hv]; rfl⟩
      · exact .inr ⟨_, u, v, by rw [hu]; rfl, by rw [hv]; rfl, huv⟩

/-- Settles O52: the two states are alike, and likeness is kept by every step. -/
theorem unwrittenNibblesUnobservable : Obligations.UnwrittenNibblesUnobservable := by
  intro k s t hl h
  obtain hnone | ⟨vs, u, v, hu, hv, huv⟩ := (alike_of_sameButNib hl h).runFor k
  · exact .inl hnone
  · exact .inr ⟨vs, u, v, hu, hv, huv.sameButNib, huv.status_eq⟩

/-- Any two states are alike after a Reset. -/
theorem alike_resetEvent {s t : State} (h : s.inputs = t.inputs) :
    Alike t.draws s.draws (resetEvent s) (resetEvent t) :=
  { cur := rfl, fmt := rfl, loaded := rfl, fault := rfl, cause := rfl, inputs := h, out := rfl
    draws := by simp only [resetEvent_draws]; omega
    nib := nofun }

/-- Settles O53: the first step makes any two states alike, and likeness is kept by every step. -/
theorem resetErasesHistory : Obligations.ResetErasesHistory := by
  intro k s t p l hr hs ht
  rw [runFor_succ_quiet (step_reset hs hr) rfl, runFor_succ_quiet (step_reset ht hr) rfl]
  obtain hnone | ⟨vs, u, v, hu, hv, huv⟩ :=
    (alike_resetEvent (s := s.withInputs l) (t := t.withInputs l) rfl).runFor k
  · exact .inl hnone
  · exact .inr ⟨vs, u, v, hu, hv, huv.status_eq⟩

end Sys2Proof.Machine
end

section
/-! PROOFS. Idle cycles are invisible (R59, R194): what an event does depends neither on the
inputs to come nor on the last output. -/

namespace Sys2Proof.Machine

/-- Other inputs to come, and another last output. -/
def State.withInputsOut (s : State) (l : List Cycle) (o : Out) : State := (s.withInputs l).withOut o

theorem effect_withInputsOut (i : Instr) (s : State) (l : List Cycle) (o : Out) :
    effect i (s.withInputsOut l o) = (effect i s).withInputs l := by
  cases i with
  | pull =>
    cases hl : s.loaded with
    | true => rw [effect, pullEffect_loaded hl, pullEffect_loaded (by exact hl)]; rfl
    | false => rw [effect, pullEffect_empty hl, pullEffect_empty (by exact hl)]; rfl
  | _ => rfl

theorem eventEffect_withInputsOut (e : Event) (s : State) (l : List Cycle) (o : Out) :
    eventEffect e (s.withInputsOut l o) = (eventEffect e s).withInputs l := by
  cases e with
  | reset => rfl
  | cmd w =>
    rw [eventEffect, cmdEffect]
    cases decodeCmd w with
    | ok i => exact effect_withInputsOut i s l o
    | error r => rfl
  | pull => exact effect_withInputsOut .pull s l o
  | idle => rfl

/-- The step on a clock cycle, from whatever inputs are to come after it and whatever the last
output. -/
theorem step_withInputsOut_pins (s : State) (p : Pins) (l : List Cycle) (o : Out) :
    step (s.withInputsOut (.pins p :: l) o)
      = .next ((eventEffect (eventOf s.fault p) s).withInputs l) := by
  rw [← eventEffect_withInputsOut _ s l o]
  exact step_pins rfl

theorem isIdleCycle_pins_iff (p : Pins) :
    isIdleCycle (.pins p) = true ↔ p.rst = false ∧ p.cmdValid = false ∧ p.pull = false := by
  simp [isIdleCycle, and_assoc]

/-- A run and the run without its idle cycles, by induction over the cycles: an idle cycle is a step
that changes the inputs and the last output alone, and any other cycle is a step in both. -/
theorem runFor_filter_idle (cs : List Cycle) (hpins : ∀ c ∈ cs, IsPins c) (s : State) (o o' : Out) :
    ∃ vs, ∃ t : State, ∃ q q', runFor cs.length (s.withInputsOut cs o) = some (vs, t.withOut q) ∧
      runFor (cs.filter (!isIdleCycle ·)).length
          (s.withInputsOut (cs.filter (!isIdleCycle ·)) o')
        = some (vs, t.withOut q') := by
  induction cs generalizing s o o' with
  | nil => exact ⟨[], s.withInputs [], o, o', rfl, rfl⟩
  | cons c cs ih =>
    obtain ⟨p, rfl⟩ := hpins c List.mem_cons_self
    have ih := ih fun c hc => hpins c (List.mem_cons_of_mem _ hc)
    have hstep := step_withInputsOut_pins s p
    rw [List.length_cons]
    cases hidle : isIdleCycle (.pins p) with
    | true =>
      obtain ⟨hr, hc, hp⟩ := (isIdleCycle_pins_iff p).1 hidle
      rw [eventOf_low hr hc hp] at hstep
      rw [List.filter_cons_of_neg (by rw [hidle]; decide), runFor_succ_quiet (hstep cs o) rfl]
      exact ih s .quiet o'
    | false =>
      rw [List.filter_cons_of_pos (by rw [hidle]; decide), List.length_cons,
        runFor_succ_next (hstep _ _), runFor_succ_next (hstep _ _)]
      generalize eventEffect (eventOf s.fault p) s = u
      obtain ⟨vs, t, q, q', hrun, hfilter⟩ := ih u u.out u.out
      refine ⟨(delivered u).toList ++ vs, t, q, q', ?_, ?_⟩
      · rw [show u.withInputs cs = u.withInputsOut cs u.out from rfl, hrun]; rfl
      · rw [show ∀ l, u.withInputs l = u.withInputsOut l u.out from fun _ => rfl, hfilter]; rfl

/-- Settles O59: the two runs end in states that differ in the last output alone. -/
theorem idleCyclesInvisible : Obligations.IdleCyclesInvisible := by
  rintro s cs hpins rfl
  obtain ⟨vs, t, q, q', hrun, hfilter⟩ := runFor_filter_idle s.inputs hpins s s.out s.out
  exact ⟨vs, _, _, hrun, hfilter, rfl, rfl, rfl, rfl⟩

end Sys2Proof.Machine
end

section
/-! PROOFS. The five counters are the cursor (R135, R199): `Locate` and the counters' index are
inverse to each other, and one PULL on the counters adds 1 to the index. -/

namespace Sys2Proof.Machine

/-- The counters stand for an index of the sample space: each is inside its range (R199). -/
structure Counters.InRange (n : NibbleFrame) (x : Counters) : Prop where
  r_lt : x.r < 12
  m_lt : x.m < 37
  q_lt : x.q < counterWidth Config.hw n x.m
  t_lt : x.t < 1000

/-- The slot position at which the counters stand. -/
def counterSlot (n : NibbleFrame) (x : Counters) : Nat :=
  x.r * repLen Config.hw n + elemOffset Config.hw n x.m + x.q

theorem hw_counterIndex (n : NibbleFrame) (x : Counters) : counterIndex Config.hw n x
    = 2 * (1000 * counterSlot n x + x.t) + (phaseBit x.ph).toNat := rfl

theorem hw_streamLen_eq (n : NibbleFrame) :
    streamLen Config.hw n = 2 * (1000 * (12 * repLen Config.hw n)) := rfl

theorem phaseBit_phaseOf_toNat (k : Nat) : (phaseBit (phaseOf k)).toNat = k % 2 := by
  rw [phaseOf]
  rcases Nat.mod_two_eq_zero_or_one k with h | h <;> rw [h] <;> rfl

theorem phaseOf_two_mul_add_phaseBit (j : Nat) (ph : Phase) :
    phaseOf (2 * j + (phaseBit ph).toNat) = ph := by
  cases ph <;> simp [phaseOf, phaseBit, Nat.add_mod]

theorem phaseBit_toNat_lt (ph : Phase) : (phaseBit ph).toNat < 2 := by cases ph <;> decide

/-! ## `Locate` and the index -/

section
variable (n : NibbleFrame) (k : Nat)

/-- The located element and place are in a repetition, at the slot of the index. -/
theorem locate_place : (locate Config.hw n k).m < 37 ∧
    (locate Config.hw n k).q < counterWidth Config.hw n (locate Config.hw n k).m ∧
    elemOffset Config.hw n (locate Config.hw n k).m + (locate Config.hw n k).q
      = k / 2 / 1000 % repLen Config.hw n := by
  have hlt : k / 2 / 1000 % repLen Config.hw n < (repWidths Config.hw n).sum := by
    rw [repWidths_sum hw_nbits]; exact Nat.mod_lt _ (repLen_pos hw_nbits hw_elemWidth_pos n)
  obtain ⟨hm, hq, hsum⟩ := findElem_spec hlt
  rw [repWidths_length] at hm
  rw [repWidths_getD hw_nbits n hm] at hq
  exact ⟨hm, hq, hsum⟩

theorem counterSlot_locate : counterSlot n (locate Config.hw n k) = k / 2 / 1000 := by
  obtain ⟨-, -, hsum⟩ := locate_place n k
  rw [counterSlot, Nat.add_assoc, hsum, Nat.mul_comm]
  exact Nat.div_add_mod _ _

/-- The located counters stand for the index they were located at. -/
theorem counterIndex_locate : counterIndex Config.hw n (locate Config.hw n k) = k := by
  have ht : (locate Config.hw n k).t = k / 2 % 1000 := rfl
  have hph : (locate Config.hw n k).ph = phaseOf k := rfl
  rw [hw_counterIndex, counterSlot_locate, ht, hph, phaseBit_phaseOf_toNat]
  omega

theorem locate_inRange (hk : k < streamLen Config.hw n) : (locate Config.hw n k).InRange n := by
  obtain ⟨hm, hq, -⟩ := locate_place n k
  rw [hw_streamLen_eq] at hk
  refine ⟨?_, hm, hq, Nat.mod_lt _ (by decide)⟩
  exact Nat.div_lt_of_lt_mul (by rw [Nat.mul_comm, hw_osr]; omega)

end

section
variable {n : NibbleFrame} {x : Counters} (hx : x.InRange n)
include hx

/-- Counters in their ranges are located at the index they stand for. -/
theorem locate_counterIndex : locate Config.hw n (counterIndex Config.hw n x) = x := by
  have hph := phaseBit_toNat_lt x.ph
  have ht := hx.t_lt
  have hhalf : counterIndex Config.hw n x / 2 = 1000 * counterSlot n x + x.t := by
    rw [hw_counterIndex]; omega
  have hslot : (1000 * counterSlot n x + x.t) / 1000 = counterSlot n x := by omega
  have htick : (1000 * counterSlot n x + x.t) % 1000 = x.t := by omega
  have hphase : phaseOf (counterIndex Config.hw n x) = x.ph := phaseOf_two_mul_add_phaseBit _ _
  rw [locate]
  simp only [hw_osr, hhalf, hslot, htick, hphase]
  rw [counterSlot, slot_place_div hw_nbits n hx.m_lt hx.q_lt,
    slot_place_mod hw_nbits n hx.m_lt hx.q_lt, findElem_place hw_nbits n hx.m_lt hx.q_lt]

theorem counterIndex_lt : counterIndex Config.hw n x < streamLen Config.hw n := by
  have hle := elemOffset_add_width_le hw_nbits n hx.m_lt
  have hr : x.r * repLen Config.hw n ≤ 11 * repLen Config.hw n :=
    Nat.mul_le_mul_right _ (Nat.le_of_lt_succ hx.r_lt)
  have hslot : counterSlot n x < 12 * repLen Config.hw n := by
    have := hx.q_lt
    rw [counterSlot]; omega
  have := hx.t_lt
  have := phaseBit_toNat_lt x.ph
  rw [hw_counterIndex, hw_streamLen_eq]
  omega

end

/-! ## One PULL on the counters -/

/-- From `x` to `y` one PULL: `y` is in its ranges, and either its index is one further, or that
of `x` was the last one and all five counters of `y` are 0. -/
def CounterStep (n : NibbleFrame) (x y : Counters) : Prop :=
  y.InRange n ∧ (counterIndex Config.hw n y = counterIndex Config.hw n x + 1 ∨
    y = Counters.zero ∧ counterIndex Config.hw n x + 1 = streamLen Config.hw n)

theorem Counters.zero_inRange (n : NibbleFrame) : Counters.zero.InRange n :=
  ⟨by decide, by decide, counterWidth_pos hw_elemWidth_pos n 0, by decide⟩

theorem counterIndex_zero (n : NibbleFrame) : counterIndex Config.hw n Counters.zero = 0 := by
  simp [counterIndex, Counters.zero, phaseBit]

/-- After the last tick of a slot comes the first value of the next slot. -/
theorem counterIndex_first_of_next_slot {n : NibbleFrame} {x y : Counters} (hxt : x.t = 999)
    (hxph : x.ph = .q) (hyt : y.t = 0) (hyph : y.ph = .i)
    (hslot : counterSlot n y = counterSlot n x + 1) :
    counterIndex Config.hw n y = counterIndex Config.hw n x + 1 := by
  rw [hw_counterIndex, hw_counterIndex, hslot, hxt, hxph, hyt, hyph,
    show (phaseBit .i).toNat = 0 from rfl, show (phaseBit .q).toNat = 1 from rfl]
  omega

/-- The last element of a repetition ends where the repetition does. -/
theorem elemOffset_last (n : NibbleFrame) :
    elemOffset Config.hw n 36 + counterWidth Config.hw n 36 = repLen Config.hw n := by
  rw [← elemOffset_succ hw_nbits n (by decide), elemOffset_end hw_nbits]

/-- The counters step by phase, tick, place, element and repetition, each when the ones inside it
are at their last (R199). -/
theorem counterStep_counterNext {n : NibbleFrame} {x : Counters} (hx : x.InRange n) :
    CounterStep n x (counterNext Config.hw n x) := by
  have hr := hx.r_lt
  have hm := hx.m_lt
  have hq := hx.q_lt
  have ht := hx.t_lt
  have hw := counterWidth_pos hw_elemWidth_pos n
  unfold counterNext
  rw [hw_osr, hw_nbits, hw_reps]
  split
  next hph =>
    refine ⟨⟨hr, hm, hq, ht⟩, .inl ?_⟩
    rw [hw_counterIndex, hw_counterIndex, hph]; rfl
  next hph =>
  split
  next htick =>
    refine ⟨⟨hr, hm, hq, Nat.add_lt_of_lt_sub htick⟩, .inl ?_⟩
    rw [hw_counterIndex, hw_counterIndex, hph]; rfl
  next htick =>
  have ht : x.t = 999 := by omega
  split
  next hplace =>
    exact ⟨⟨hr, hm, Nat.add_lt_of_lt_sub hplace, Nat.succ_pos 999⟩,
      .inl (counterIndex_first_of_next_slot ht hph rfl rfl rfl)⟩
  next hplace =>
  have hend : x.q + 1 = counterWidth Config.hw n x.m := by omega
  split
  next helem =>
    refine ⟨⟨hr, Nat.add_lt_add_right helem 1, hw _, Nat.succ_pos 999⟩,
      .inl (counterIndex_first_of_next_slot ht hph rfl rfl ?_)⟩
    simp only [counterSlot, elemOffset_succ hw_nbits n hm]
    omega
  next helem =>
  have hlast := elemOffset_last n
  have hm : x.m = 36 := by omega
  rw [hm] at hend
  have hslot : counterSlot n x + 1 = (x.r + 1) * repLen Config.hw n := by
    rw [Nat.succ_mul, counterSlot, hm]; omega
  split
  next hrep =>
    exact ⟨⟨Nat.add_lt_of_lt_sub hrep, Nat.succ_pos 36, hw 0, Nat.succ_pos 999⟩,
      .inl (counterIndex_first_of_next_slot ht hph rfl rfl hslot.symm)⟩
  next hrep =>
    have hr : x.r = 11 := by omega
    rw [hr] at hslot
    refine ⟨Counters.zero_inRange n, .inr ⟨rfl, ?_⟩⟩
    rw [hw_counterIndex, hw_streamLen_eq, hph, show (phaseBit .q).toNat = 1 from rfl]
    omega

/-- The counters after a PULL stand for the cursor after a PULL. -/
theorem counterIndex_counterNext {n : NibbleFrame} {x : Counters} (hx : x.InRange n) :
    counterIndex Config.hw n (counterNext Config.hw n x)
      = (counterIndex Config.hw n x + 1) % streamLen Config.hw n := by
  obtain ⟨hy, hnext | ⟨hzero, hlast⟩⟩ := counterStep_counterNext hx
  · rw [← hnext, Nat.mod_eq_of_lt (counterIndex_lt hy)]
  · rw [hzero, counterIndex_zero, hlast, Nat.mod_self]

/-- The located counters deliver `Sample` (R171, R199). -/
theorem counterValue_locate (f : Fmt) (n : NibbleFrame) (k : Nat) :
    counterValue Config.hw f (locate Config.hw n k) = sample Config.hw f n k := by
  have hlt : k / 2 / 1000 % repLen Config.hw n < (repWidths Config.hw n).sum := by
    rw [repWidths_sum hw_nbits]; exact Nat.mod_lt _ (repLen_pos hw_nbits hw_elemWidth_pos n)
  rw [sample, levelAt, counterValue, show (locate Config.hw n k).ph = phaseOf k from rfl]
  cases phaseOf k with
  | q => rfl
  | i => simp only [slot, hw_osr, walkSlot_eq_findElem hlt]; rfl

theorem locate_eq_zero_iff (n : NibbleFrame) (k : Nat) :
    locate Config.hw n k = Counters.zero ↔ k = 0 := by
  constructor
  · intro h
    rw [← counterIndex_locate n k, h, counterIndex_zero]
  · rintro rfl
    have h := locate_counterIndex (Counters.zero_inRange n)
    rwa [counterIndex_zero] at h

/-- Settles O60: the counters are located by their index, and a PULL on them moves the index as it
moves the cursor. -/
theorem countersRefineCursor : Obligations.CountersRefineCursor := by
  intro f n k hk
  have hx := locate_inRange n k hk
  refine ⟨counterIndex_locate n k, ?_, counterValue_locate f n k, locate_eq_zero_iff n k⟩
  rw [← locate_counterIndex (counterStep_counterNext hx).1, counterIndex_counterNext hx,
    counterIndex_locate]

end Sys2Proof.Machine
end
